-- ==== Sys2Proof/Word.lean ====
section
/-! DEFINITION. The two widths the CPU works with (00_scope rules R4 and R5). -/

namespace Sys2Proof

/-- The addressable unit and the width of `A`, `X`, `Y`, `S` (rule R4, `BYTE`, `XLEN`, `SPLEN`). -/
abbrev Byte := BitVec 8

/-- The width of `PC` and of a bus address (rule R4, `PCLEN`, `ALEN`). -/
abbrev Word := BitVec 16

end Sys2Proof
end

