-- ==== Sys2Proof/Config.lean ====
section
/-! DEFINITION. The parameters of 00_scope rule R4: the constants of the hardware, the two session parameters,
and the one free value. -/

namespace Sys2Proof

/-- `open_bus_value` (50_bus rule R308, decision D20): the byte an open-bus read returns. The spec leaves it open
("last driven value or a fixed pattern"), so it is a FREE VALUE: no body, nothing can be proved about it. The first
argument is the address read, the second the number of open-bus reads before this one, so that two reads of one
address need not agree (log 2). -/
opaque openBusValue : Word → Nat → Byte

/-- What opcode 0x00 does (rule R4, `BRK_MODE`; 46_system_flags rules R218 and R219). -/
inductive BrkMode where
  /-- the normative value: BRK raises HALT(Break) -/
  | halt
  /-- the non-normative value: BRK is the software interrupt of rule R219 -/
  | interrupt
  deriving DecidableEq, Repr

/-- The parameters that are constants of a session (rules R4 and R25). Both values of each are specified. -/
structure Params where
  /-- `DECIMAL_ENABLED`: whether `D = 1` makes ADC and SBC decimal -/
  decimalEnabled : Bool
  /-- `BRK_MODE` -/
  brkMode : BrkMode
  deriving DecidableEq, Repr

/-- The normative values (decisions D2 and D3). -/
def Params.normative : Params := { decimalEnabled := true, brkMode := .halt }

/-- `STACK_PAGE`, as the address of the page's first byte (20_memory rule R45). -/
def stackPage : Word := 0x0100

/-- The three vectors (20_memory rule R48). -/
def vecNmi : Word := 0xFFFA

/-- See `vecNmi`. -/
def vecReset : Word := 0xFFFC

/-- See `vecNmi`; shared by IRQ and by BRK under `BRK_MODE = interrupt`. -/
def vecIrq : Word := 0xFFFE

/-- `INT_CYCLES`: the cost of an interrupt entry. -/
def intCycles : Nat := 7

/-- `PPU_PER_CPU`: dots for each CPU cycle. -/
def ppuPerCpu : Nat := 3

/-- Dots in a scanline and scanlines in a frame (51_ppu rule R351). -/
def dotsPerLine : Nat := 341

/-- See `dotsPerLine`. -/
def linesPerFrame : Nat := 262

end Sys2Proof
end

