-- ==== Sys2Proof/Syntax.lean ====
section
/-! DEFINITION. The instruction set as syntax: one constructor for each of the 256 rows of spec/opcode_table.json
(30_encoding rule R76, 47_undocumented).

A constructor's name is the row's mnemonic and its addressing mode in the abbreviations of rule R76; where several
opcode values share both, the undocumented ones carry their opcode value. The argument is the operand as rule R74
assembles it: `b` the operand byte, `d` the displacement byte of a branch, `n` the operand word (low byte first in
memory, rule R42). -/

namespace Sys2Proof

/-- The 256 instructions, format by format, each format in the order of its opcode values. -/
inductive Instr where
  -- format F2: one operand byte
  | oraIzx (b : Byte) -- 0x01, R151
  | sloIzx (b : Byte) -- 0x03, R235
  | nopZp04 (b : Byte) -- 0x04, R230
  | oraZp (b : Byte) -- 0x05, R151
  | aslZp (b : Byte) -- 0x06, R176
  | sloZp (b : Byte) -- 0x07, R235
  | oraImm (b : Byte) -- 0x09, R151
  | ancImm0B (b : Byte) -- 0x0B, R239
  | bplRel (d : Byte) -- 0x10, R199
  | oraIzy (b : Byte) -- 0x11, R151
  | sloIzy (b : Byte) -- 0x13, R235
  | nopZpx14 (b : Byte) -- 0x14, R230
  | oraZpx (b : Byte) -- 0x15, R151
  | aslZpx (b : Byte) -- 0x16, R176
  | sloZpx (b : Byte) -- 0x17, R235
  | andIzx (b : Byte) -- 0x21, R150
  | rlaIzx (b : Byte) -- 0x23, R236
  | bitZp (b : Byte) -- 0x24, R153
  | andZp (b : Byte) -- 0x25, R150
  | rolZp (b : Byte) -- 0x26, R178
  | rlaZp (b : Byte) -- 0x27, R236
  | andImm (b : Byte) -- 0x29, R150
  | ancImm2B (b : Byte) -- 0x2B, R239
  | bmiRel (d : Byte) -- 0x30, R198
  | andIzy (b : Byte) -- 0x31, R150
  | rlaIzy (b : Byte) -- 0x33, R236
  | nopZpx34 (b : Byte) -- 0x34, R230
  | andZpx (b : Byte) -- 0x35, R150
  | rolZpx (b : Byte) -- 0x36, R178
  | rlaZpx (b : Byte) -- 0x37, R236
  | eorIzx (b : Byte) -- 0x41, R152
  | sreIzx (b : Byte) -- 0x43, R237
  | nopZp44 (b : Byte) -- 0x44, R230
  | eorZp (b : Byte) -- 0x45, R152
  | lsrZp (b : Byte) -- 0x46, R177
  | sreZp (b : Byte) -- 0x47, R237
  | eorImm (b : Byte) -- 0x49, R152
  | alrImm (b : Byte) -- 0x4B, R240
  | bvcRel (d : Byte) -- 0x50, R200
  | eorIzy (b : Byte) -- 0x51, R152
  | sreIzy (b : Byte) -- 0x53, R237
  | nopZpx54 (b : Byte) -- 0x54, R230
  | eorZpx (b : Byte) -- 0x55, R152
  | lsrZpx (b : Byte) -- 0x56, R177
  | sreZpx (b : Byte) -- 0x57, R237
  | adcIzx (b : Byte) -- 0x61, R157
  | rraIzx (b : Byte) -- 0x63, R238
  | nopZp64 (b : Byte) -- 0x64, R230
  | adcZp (b : Byte) -- 0x65, R157
  | rorZp (b : Byte) -- 0x66, R179
  | rraZp (b : Byte) -- 0x67, R238
  | adcImm (b : Byte) -- 0x69, R157
  | arrImm (b : Byte) -- 0x6B, R241
  | bvsRel (d : Byte) -- 0x70, R201
  | adcIzy (b : Byte) -- 0x71, R157
  | rraIzy (b : Byte) -- 0x73, R238
  | nopZpx74 (b : Byte) -- 0x74, R230
  | adcZpx (b : Byte) -- 0x75, R157
  | rorZpx (b : Byte) -- 0x76, R179
  | rraZpx (b : Byte) -- 0x77, R238
  | nopImm80 (b : Byte) -- 0x80, R230
  | staIzx (b : Byte) -- 0x81, R123
  | nopImm82 (b : Byte) -- 0x82, R230
  | saxIzx (b : Byte) -- 0x83, R232
  | styZp (b : Byte) -- 0x84, R125
  | staZp (b : Byte) -- 0x85, R123
  | stxZp (b : Byte) -- 0x86, R124
  | saxZp (b : Byte) -- 0x87, R232
  | nopImm89 (b : Byte) -- 0x89, R230
  | xaaImm (b : Byte) -- 0x8B, R246
  | bccRel (d : Byte) -- 0x90, R194
  | staIzy (b : Byte) -- 0x91, R123
  | shaIzy (b : Byte) -- 0x93, R248
  | styZpx (b : Byte) -- 0x94, R125
  | staZpx (b : Byte) -- 0x95, R123
  | stxZpy (b : Byte) -- 0x96, R124
  | saxZpy (b : Byte) -- 0x97, R232
  | ldyImm (b : Byte) -- 0xA0, R122
  | ldaIzx (b : Byte) -- 0xA1, R120
  | ldxImm (b : Byte) -- 0xA2, R121
  | laxIzx (b : Byte) -- 0xA3, R231
  | ldyZp (b : Byte) -- 0xA4, R122
  | ldaZp (b : Byte) -- 0xA5, R120
  | ldxZp (b : Byte) -- 0xA6, R121
  | laxZp (b : Byte) -- 0xA7, R231
  | ldaImm (b : Byte) -- 0xA9, R120
  | lxaImm (b : Byte) -- 0xAB, R247
  | bcsRel (d : Byte) -- 0xB0, R195
  | ldaIzy (b : Byte) -- 0xB1, R120
  | laxIzy (b : Byte) -- 0xB3, R231
  | ldyZpx (b : Byte) -- 0xB4, R122
  | ldaZpx (b : Byte) -- 0xB5, R120
  | ldxZpy (b : Byte) -- 0xB6, R121
  | laxZpy (b : Byte) -- 0xB7, R231
  | cpyImm (b : Byte) -- 0xC0, R156
  | cmpIzx (b : Byte) -- 0xC1, R154
  | nopImmC2 (b : Byte) -- 0xC2, R230
  | dcpIzx (b : Byte) -- 0xC3, R233
  | cpyZp (b : Byte) -- 0xC4, R156
  | cmpZp (b : Byte) -- 0xC5, R154
  | decZp (b : Byte) -- 0xC6, R171
  | dcpZp (b : Byte) -- 0xC7, R233
  | cmpImm (b : Byte) -- 0xC9, R154
  | axsImm (b : Byte) -- 0xCB, R242
  | bneRel (d : Byte) -- 0xD0, R197
  | cmpIzy (b : Byte) -- 0xD1, R154
  | dcpIzy (b : Byte) -- 0xD3, R233
  | nopZpxD4 (b : Byte) -- 0xD4, R230
  | cmpZpx (b : Byte) -- 0xD5, R154
  | decZpx (b : Byte) -- 0xD6, R171
  | dcpZpx (b : Byte) -- 0xD7, R233
  | cpxImm (b : Byte) -- 0xE0, R155
  | sbcIzx (b : Byte) -- 0xE1, R159
  | nopImmE2 (b : Byte) -- 0xE2, R230
  | iscIzx (b : Byte) -- 0xE3, R234
  | cpxZp (b : Byte) -- 0xE4, R155
  | sbcZp (b : Byte) -- 0xE5, R159
  | incZp (b : Byte) -- 0xE6, R170
  | iscZp (b : Byte) -- 0xE7, R234
  | sbcImm (b : Byte) -- 0xE9, R159
  | sbcImmEB (b : Byte) -- 0xEB, R243
  | beqRel (d : Byte) -- 0xF0, R196
  | sbcIzy (b : Byte) -- 0xF1, R159
  | iscIzy (b : Byte) -- 0xF3, R234
  | nopZpxF4 (b : Byte) -- 0xF4, R230
  | sbcZpx (b : Byte) -- 0xF5, R159
  | incZpx (b : Byte) -- 0xF6, R170
  | iscZpx (b : Byte) -- 0xF7, R234
  -- format F3: an operand word
  | nopAbs (n : Word) -- 0x0C, R230
  | oraAbs (n : Word) -- 0x0D, R151
  | aslAbs (n : Word) -- 0x0E, R176
  | sloAbs (n : Word) -- 0x0F, R235
  | oraAby (n : Word) -- 0x19, R151
  | sloAby (n : Word) -- 0x1B, R235
  | nopAbx1C (n : Word) -- 0x1C, R230
  | oraAbx (n : Word) -- 0x1D, R151
  | aslAbx (n : Word) -- 0x1E, R176
  | sloAbx (n : Word) -- 0x1F, R235
  | jsrAbs (n : Word) -- 0x20, R191
  | bitAbs (n : Word) -- 0x2C, R153
  | andAbs (n : Word) -- 0x2D, R150
  | rolAbs (n : Word) -- 0x2E, R178
  | rlaAbs (n : Word) -- 0x2F, R236
  | andAby (n : Word) -- 0x39, R150
  | rlaAby (n : Word) -- 0x3B, R236
  | nopAbx3C (n : Word) -- 0x3C, R230
  | andAbx (n : Word) -- 0x3D, R150
  | rolAbx (n : Word) -- 0x3E, R178
  | rlaAbx (n : Word) -- 0x3F, R236
  | jmpAbs (n : Word) -- 0x4C, R190
  | eorAbs (n : Word) -- 0x4D, R152
  | lsrAbs (n : Word) -- 0x4E, R177
  | sreAbs (n : Word) -- 0x4F, R237
  | eorAby (n : Word) -- 0x59, R152
  | sreAby (n : Word) -- 0x5B, R237
  | nopAbx5C (n : Word) -- 0x5C, R230
  | eorAbx (n : Word) -- 0x5D, R152
  | lsrAbx (n : Word) -- 0x5E, R177
  | sreAbx (n : Word) -- 0x5F, R237
  | jmpInd (n : Word) -- 0x6C, R190
  | adcAbs (n : Word) -- 0x6D, R157
  | rorAbs (n : Word) -- 0x6E, R179
  | rraAbs (n : Word) -- 0x6F, R238
  | adcAby (n : Word) -- 0x79, R157
  | rraAby (n : Word) -- 0x7B, R238
  | nopAbx7C (n : Word) -- 0x7C, R230
  | adcAbx (n : Word) -- 0x7D, R157
  | rorAbx (n : Word) -- 0x7E, R179
  | rraAbx (n : Word) -- 0x7F, R238
  | styAbs (n : Word) -- 0x8C, R125
  | staAbs (n : Word) -- 0x8D, R123
  | stxAbs (n : Word) -- 0x8E, R124
  | saxAbs (n : Word) -- 0x8F, R232
  | staAby (n : Word) -- 0x99, R123
  | tasAby (n : Word) -- 0x9B, R251
  | shyAbx (n : Word) -- 0x9C, R249
  | staAbx (n : Word) -- 0x9D, R123
  | shxAby (n : Word) -- 0x9E, R250
  | shaAby (n : Word) -- 0x9F, R248
  | ldyAbs (n : Word) -- 0xAC, R122
  | ldaAbs (n : Word) -- 0xAD, R120
  | ldxAbs (n : Word) -- 0xAE, R121
  | laxAbs (n : Word) -- 0xAF, R231
  | ldaAby (n : Word) -- 0xB9, R120
  | lasAby (n : Word) -- 0xBB, R244
  | ldyAbx (n : Word) -- 0xBC, R122
  | ldaAbx (n : Word) -- 0xBD, R120
  | ldxAby (n : Word) -- 0xBE, R121
  | laxAby (n : Word) -- 0xBF, R231
  | cpyAbs (n : Word) -- 0xCC, R156
  | cmpAbs (n : Word) -- 0xCD, R154
  | decAbs (n : Word) -- 0xCE, R171
  | dcpAbs (n : Word) -- 0xCF, R233
  | cmpAby (n : Word) -- 0xD9, R154
  | dcpAby (n : Word) -- 0xDB, R233
  | nopAbxDC (n : Word) -- 0xDC, R230
  | cmpAbx (n : Word) -- 0xDD, R154
  | decAbx (n : Word) -- 0xDE, R171
  | dcpAbx (n : Word) -- 0xDF, R233
  | cpxAbs (n : Word) -- 0xEC, R155
  | sbcAbs (n : Word) -- 0xED, R159
  | incAbs (n : Word) -- 0xEE, R170
  | iscAbs (n : Word) -- 0xEF, R234
  | sbcAby (n : Word) -- 0xF9, R159
  | iscAby (n : Word) -- 0xFB, R234
  | nopAbxFC (n : Word) -- 0xFC, R230
  | sbcAbx (n : Word) -- 0xFD, R159
  | incAbx (n : Word) -- 0xFE, R170
  | iscAbx (n : Word) -- 0xFF, R234
  -- format F1: no operand
  | brkImp -- 0x00, R218
  | jamImp02 -- 0x02, R245
  | phpImp -- 0x08, R141
  | aslAcc -- 0x0A, R176
  | jamImp12 -- 0x12, R245
  | clcImp -- 0x18, R210
  | nopImp1A -- 0x1A, R230
  | jamImp22 -- 0x22, R245
  | plpImp -- 0x28, R143
  | rolAcc -- 0x2A, R178
  | jamImp32 -- 0x32, R245
  | secImp -- 0x38, R211
  | nopImp3A -- 0x3A, R230
  | rtiImp -- 0x40, R220
  | jamImp42 -- 0x42, R245
  | phaImp -- 0x48, R140
  | lsrAcc -- 0x4A, R177
  | jamImp52 -- 0x52, R245
  | cliImp -- 0x58, R212
  | nopImp5A -- 0x5A, R230
  | rtsImp -- 0x60, R192
  | jamImp62 -- 0x62, R245
  | plaImp -- 0x68, R142
  | rorAcc -- 0x6A, R179
  | jamImp72 -- 0x72, R245
  | seiImp -- 0x78, R213
  | nopImp7A -- 0x7A, R230
  | deyImp -- 0x88, R175
  | txaImp -- 0x8A, R128
  | jamImp92 -- 0x92, R245
  | tyaImp -- 0x98, R129
  | txsImp -- 0x9A, R131
  | tayImp -- 0xA8, R127
  | taxImp -- 0xAA, R126
  | jamImpB2 -- 0xB2, R245
  | clvImp -- 0xB8, R216
  | tsxImp -- 0xBA, R130
  | inyImp -- 0xC8, R173
  | dexImp -- 0xCA, R174
  | jamImpD2 -- 0xD2, R245
  | cldImp -- 0xD8, R214
  | nopImpDA -- 0xDA, R230
  | inxImp -- 0xE8, R172
  | nopImp -- 0xEA, R217
  | jamImpF2 -- 0xF2, R245
  | sedImp -- 0xF8, R215
  | nopImpFA -- 0xFA, R230
  deriving DecidableEq, Repr

end Sys2Proof
end

