-- ==== Sys2Proof/WellFormed.lean ====
section
/-! DEFINITION. Which terms of `Instr` are instructions: all of them.

30_encoding rule R79: "No operand value is illegal for any instruction", and rule R75: every opcode value is
assigned. The operands are a byte or a word, exactly as wide as the encoding, so there is no check to make and no
ill-formed term to refuse. -/

namespace Sys2Proof

/-- Every instruction is well formed (rules R75 and R79). -/
def Instr.wellFormed (_ : Instr) : Bool := true

end Sys2Proof
end

