-- ==== Sys2Proof/Decode.lean ====
section
/-! DEFINITION. Bytes to instructions and back (30_encoding). The byte-order helpers stand here too, since the
assembly of an operand word (rule R74) is their first use. -/

namespace Sys2Proof

/-- `{hi, lo}` of rule R5: the word with the given high and low byte. -/
def mkWord (hi lo : Byte) : Word := hi ++ lo

/-- `w[7:0]`. -/
def loByte (w : Word) : Byte := w.extractLsb' 0 8

/-- `w[15:8]`, also the page number of an address (00_scope, glossary). -/
def hiByte (w : Word) : Byte := w.extractLsb' 8 8

/-- One cell of the opcode matrix: what is still needed to have an instruction (rule R70: formats F1, F2, F3). -/
inductive Form where
  | f1 (i : Instr)
  | f2 (mk : Byte → Instr)
  | f3 (mk : Word → Instr)

/-- How many operand bytes follow the opcode byte (rules R70, R71). -/
def Form.operandBytes : Form → Nat
  | .f1 _ => 0
  | .f2 _ => 1
  | .f3 _ => 2

/-- The instruction made of a cell and the two bytes after the opcode; bytes the format lacks are ignored. -/
def Form.build (f : Form) (b1 b2 : Byte) : Instr :=
  match f with
  | .f1 i => i
  | .f2 mk => mk b1
  | .f3 mk => mk (mkWord b2 b1)

/-- Row 0x of the matrix of rule R76. -/
def opcodeRow0 : List Form :=
  [.f1 .brkImp, .f2 .oraIzx, .f1 .jamImp02, .f2 .sloIzx,
   .f2 .nopZp04, .f2 .oraZp, .f2 .aslZp, .f2 .sloZp,
   .f1 .phpImp, .f2 .oraImm, .f1 .aslAcc, .f2 .ancImm0B,
   .f3 .nopAbs, .f3 .oraAbs, .f3 .aslAbs, .f3 .sloAbs]

/-- Row 1x of the matrix of rule R76. -/
def opcodeRow1 : List Form :=
  [.f2 .bplRel, .f2 .oraIzy, .f1 .jamImp12, .f2 .sloIzy,
   .f2 .nopZpx14, .f2 .oraZpx, .f2 .aslZpx, .f2 .sloZpx,
   .f1 .clcImp, .f3 .oraAby, .f1 .nopImp1A, .f3 .sloAby,
   .f3 .nopAbx1C, .f3 .oraAbx, .f3 .aslAbx, .f3 .sloAbx]

/-- Row 2x of the matrix of rule R76. -/
def opcodeRow2 : List Form :=
  [.f3 .jsrAbs, .f2 .andIzx, .f1 .jamImp22, .f2 .rlaIzx,
   .f2 .bitZp, .f2 .andZp, .f2 .rolZp, .f2 .rlaZp,
   .f1 .plpImp, .f2 .andImm, .f1 .rolAcc, .f2 .ancImm2B,
   .f3 .bitAbs, .f3 .andAbs, .f3 .rolAbs, .f3 .rlaAbs]

/-- Row 3x of the matrix of rule R76. -/
def opcodeRow3 : List Form :=
  [.f2 .bmiRel, .f2 .andIzy, .f1 .jamImp32, .f2 .rlaIzy,
   .f2 .nopZpx34, .f2 .andZpx, .f2 .rolZpx, .f2 .rlaZpx,
   .f1 .secImp, .f3 .andAby, .f1 .nopImp3A, .f3 .rlaAby,
   .f3 .nopAbx3C, .f3 .andAbx, .f3 .rolAbx, .f3 .rlaAbx]

/-- Row 4x of the matrix of rule R76. -/
def opcodeRow4 : List Form :=
  [.f1 .rtiImp, .f2 .eorIzx, .f1 .jamImp42, .f2 .sreIzx,
   .f2 .nopZp44, .f2 .eorZp, .f2 .lsrZp, .f2 .sreZp,
   .f1 .phaImp, .f2 .eorImm, .f1 .lsrAcc, .f2 .alrImm,
   .f3 .jmpAbs, .f3 .eorAbs, .f3 .lsrAbs, .f3 .sreAbs]

/-- Row 5x of the matrix of rule R76. -/
def opcodeRow5 : List Form :=
  [.f2 .bvcRel, .f2 .eorIzy, .f1 .jamImp52, .f2 .sreIzy,
   .f2 .nopZpx54, .f2 .eorZpx, .f2 .lsrZpx, .f2 .sreZpx,
   .f1 .cliImp, .f3 .eorAby, .f1 .nopImp5A, .f3 .sreAby,
   .f3 .nopAbx5C, .f3 .eorAbx, .f3 .lsrAbx, .f3 .sreAbx]

/-- Row 6x of the matrix of rule R76. -/
def opcodeRow6 : List Form :=
  [.f1 .rtsImp, .f2 .adcIzx, .f1 .jamImp62, .f2 .rraIzx,
   .f2 .nopZp64, .f2 .adcZp, .f2 .rorZp, .f2 .rraZp,
   .f1 .plaImp, .f2 .adcImm, .f1 .rorAcc, .f2 .arrImm,
   .f3 .jmpInd, .f3 .adcAbs, .f3 .rorAbs, .f3 .rraAbs]

/-- Row 7x of the matrix of rule R76. -/
def opcodeRow7 : List Form :=
  [.f2 .bvsRel, .f2 .adcIzy, .f1 .jamImp72, .f2 .rraIzy,
   .f2 .nopZpx74, .f2 .adcZpx, .f2 .rorZpx, .f2 .rraZpx,
   .f1 .seiImp, .f3 .adcAby, .f1 .nopImp7A, .f3 .rraAby,
   .f3 .nopAbx7C, .f3 .adcAbx, .f3 .rorAbx, .f3 .rraAbx]

/-- Row 8x of the matrix of rule R76. -/
def opcodeRow8 : List Form :=
  [.f2 .nopImm80, .f2 .staIzx, .f2 .nopImm82, .f2 .saxIzx,
   .f2 .styZp, .f2 .staZp, .f2 .stxZp, .f2 .saxZp,
   .f1 .deyImp, .f2 .nopImm89, .f1 .txaImp, .f2 .xaaImm,
   .f3 .styAbs, .f3 .staAbs, .f3 .stxAbs, .f3 .saxAbs]

/-- Row 9x of the matrix of rule R76. -/
def opcodeRow9 : List Form :=
  [.f2 .bccRel, .f2 .staIzy, .f1 .jamImp92, .f2 .shaIzy,
   .f2 .styZpx, .f2 .staZpx, .f2 .stxZpy, .f2 .saxZpy,
   .f1 .tyaImp, .f3 .staAby, .f1 .txsImp, .f3 .tasAby,
   .f3 .shyAbx, .f3 .staAbx, .f3 .shxAby, .f3 .shaAby]

/-- Row Ax of the matrix of rule R76. -/
def opcodeRowA : List Form :=
  [.f2 .ldyImm, .f2 .ldaIzx, .f2 .ldxImm, .f2 .laxIzx,
   .f2 .ldyZp, .f2 .ldaZp, .f2 .ldxZp, .f2 .laxZp,
   .f1 .tayImp, .f2 .ldaImm, .f1 .taxImp, .f2 .lxaImm,
   .f3 .ldyAbs, .f3 .ldaAbs, .f3 .ldxAbs, .f3 .laxAbs]

/-- Row Bx of the matrix of rule R76. -/
def opcodeRowB : List Form :=
  [.f2 .bcsRel, .f2 .ldaIzy, .f1 .jamImpB2, .f2 .laxIzy,
   .f2 .ldyZpx, .f2 .ldaZpx, .f2 .ldxZpy, .f2 .laxZpy,
   .f1 .clvImp, .f3 .ldaAby, .f1 .tsxImp, .f3 .lasAby,
   .f3 .ldyAbx, .f3 .ldaAbx, .f3 .ldxAby, .f3 .laxAby]

/-- Row Cx of the matrix of rule R76. -/
def opcodeRowC : List Form :=
  [.f2 .cpyImm, .f2 .cmpIzx, .f2 .nopImmC2, .f2 .dcpIzx,
   .f2 .cpyZp, .f2 .cmpZp, .f2 .decZp, .f2 .dcpZp,
   .f1 .inyImp, .f2 .cmpImm, .f1 .dexImp, .f2 .axsImm,
   .f3 .cpyAbs, .f3 .cmpAbs, .f3 .decAbs, .f3 .dcpAbs]

/-- Row Dx of the matrix of rule R76. -/
def opcodeRowD : List Form :=
  [.f2 .bneRel, .f2 .cmpIzy, .f1 .jamImpD2, .f2 .dcpIzy,
   .f2 .nopZpxD4, .f2 .cmpZpx, .f2 .decZpx, .f2 .dcpZpx,
   .f1 .cldImp, .f3 .cmpAby, .f1 .nopImpDA, .f3 .dcpAby,
   .f3 .nopAbxDC, .f3 .cmpAbx, .f3 .decAbx, .f3 .dcpAbx]

/-- Row Ex of the matrix of rule R76. -/
def opcodeRowE : List Form :=
  [.f2 .cpxImm, .f2 .sbcIzx, .f2 .nopImmE2, .f2 .iscIzx,
   .f2 .cpxZp, .f2 .sbcZp, .f2 .incZp, .f2 .iscZp,
   .f1 .inxImp, .f2 .sbcImm, .f1 .nopImp, .f2 .sbcImmEB,
   .f3 .cpxAbs, .f3 .sbcAbs, .f3 .incAbs, .f3 .iscAbs]

/-- Row Fx of the matrix of rule R76. -/
def opcodeRowF : List Form :=
  [.f2 .beqRel, .f2 .sbcIzy, .f1 .jamImpF2, .f2 .iscIzy,
   .f2 .nopZpxF4, .f2 .sbcZpx, .f2 .incZpx, .f2 .iscZpx,
   .f1 .sedImp, .f3 .sbcAby, .f1 .nopImpFA, .f3 .iscAby,
   .f3 .nopAbxFC, .f3 .sbcAbx, .f3 .incAbx, .f3 .iscAbx]

/-- The opcode matrix of rule R76: row = high nibble, column = low nibble. -/
def opcodeMatrix : List (List Form) :=
  [opcodeRow0, opcodeRow1, opcodeRow2, opcodeRow3] ++ [opcodeRow4, opcodeRow5, opcodeRow6, opcodeRow7] ++
  [opcodeRow8, opcodeRow9, opcodeRowA, opcodeRowB] ++ [opcodeRowC, opcodeRowD, opcodeRowE, opcodeRowF]

/-- `Decode(opcode)` of rule R76. Every value of the byte has a cell (rule R75); the two defaults are never used. -/
def decodeOpcode (op : Byte) : Form :=
  (opcodeMatrix.getD (op.toNat / 16) []).getD (op.toNat % 16) (.f1 .nopImp)

/-- `HALT_OPCODES` (rule R78): twelve JAM values and seven unstable ones. 0x00 is not a member. -/
def haltOpcodes : List Byte :=
  [0x02, 0x12, 0x22, 0x32, 0x42, 0x52, 0x62, 0x72, 0x92, 0xB2, 0xD2, 0xF2] ++
  [0x8B, 0xAB, 0x93, 0x9F, 0x9C, 0x9E, 0x9B]

/-- Why a byte string holds no whole instruction. No opcode value is refused (rule R75). -/
inductive DecodeError where
  /-- there is no opcode byte -/
  | noOpcode
  /-- the format wants more operand bytes than there are -/
  | operandMissing
  deriving DecidableEq, Repr

/-- The first instruction of a byte string and the bytes after it (rules R70, R71, R74). Total. -/
def decode : List Byte → Except DecodeError (Instr × List Byte)
  | [] => .error .noOpcode
  | op :: rest =>
    match decodeOpcode op, rest with
    | .f1 i, r => .ok (i, r)
    | .f2 mk, b1 :: r => .ok (mk b1, r)
    | .f3 mk, b1 :: b2 :: r => .ok (mk (mkWord b2 b1), r)
    | .f2 _, [] => .error .operandMissing
    | .f3 _, [] => .error .operandMissing
    | .f3 _, [_] => .error .operandMissing

/-- The bytes of an instruction, opcode byte first (rules R70, R76; the low byte of an operand word first, R42). -/
def encode : Instr → List Byte
  | .brkImp => [0x00]
  | .oraIzx b => [0x01, b]
  | .jamImp02 => [0x02]
  | .sloIzx b => [0x03, b]
  | .nopZp04 b => [0x04, b]
  | .oraZp b => [0x05, b]
  | .aslZp b => [0x06, b]
  | .sloZp b => [0x07, b]
  | .phpImp => [0x08]
  | .oraImm b => [0x09, b]
  | .aslAcc => [0x0A]
  | .ancImm0B b => [0x0B, b]
  | .nopAbs n => [0x0C, loByte n, hiByte n]
  | .oraAbs n => [0x0D, loByte n, hiByte n]
  | .aslAbs n => [0x0E, loByte n, hiByte n]
  | .sloAbs n => [0x0F, loByte n, hiByte n]
  | .bplRel b => [0x10, b]
  | .oraIzy b => [0x11, b]
  | .jamImp12 => [0x12]
  | .sloIzy b => [0x13, b]
  | .nopZpx14 b => [0x14, b]
  | .oraZpx b => [0x15, b]
  | .aslZpx b => [0x16, b]
  | .sloZpx b => [0x17, b]
  | .clcImp => [0x18]
  | .oraAby n => [0x19, loByte n, hiByte n]
  | .nopImp1A => [0x1A]
  | .sloAby n => [0x1B, loByte n, hiByte n]
  | .nopAbx1C n => [0x1C, loByte n, hiByte n]
  | .oraAbx n => [0x1D, loByte n, hiByte n]
  | .aslAbx n => [0x1E, loByte n, hiByte n]
  | .sloAbx n => [0x1F, loByte n, hiByte n]
  | .jsrAbs n => [0x20, loByte n, hiByte n]
  | .andIzx b => [0x21, b]
  | .jamImp22 => [0x22]
  | .rlaIzx b => [0x23, b]
  | .bitZp b => [0x24, b]
  | .andZp b => [0x25, b]
  | .rolZp b => [0x26, b]
  | .rlaZp b => [0x27, b]
  | .plpImp => [0x28]
  | .andImm b => [0x29, b]
  | .rolAcc => [0x2A]
  | .ancImm2B b => [0x2B, b]
  | .bitAbs n => [0x2C, loByte n, hiByte n]
  | .andAbs n => [0x2D, loByte n, hiByte n]
  | .rolAbs n => [0x2E, loByte n, hiByte n]
  | .rlaAbs n => [0x2F, loByte n, hiByte n]
  | .bmiRel b => [0x30, b]
  | .andIzy b => [0x31, b]
  | .jamImp32 => [0x32]
  | .rlaIzy b => [0x33, b]
  | .nopZpx34 b => [0x34, b]
  | .andZpx b => [0x35, b]
  | .rolZpx b => [0x36, b]
  | .rlaZpx b => [0x37, b]
  | .secImp => [0x38]
  | .andAby n => [0x39, loByte n, hiByte n]
  | .nopImp3A => [0x3A]
  | .rlaAby n => [0x3B, loByte n, hiByte n]
  | .nopAbx3C n => [0x3C, loByte n, hiByte n]
  | .andAbx n => [0x3D, loByte n, hiByte n]
  | .rolAbx n => [0x3E, loByte n, hiByte n]
  | .rlaAbx n => [0x3F, loByte n, hiByte n]
  | .rtiImp => [0x40]
  | .eorIzx b => [0x41, b]
  | .jamImp42 => [0x42]
  | .sreIzx b => [0x43, b]
  | .nopZp44 b => [0x44, b]
  | .eorZp b => [0x45, b]
  | .lsrZp b => [0x46, b]
  | .sreZp b => [0x47, b]
  | .phaImp => [0x48]
  | .eorImm b => [0x49, b]
  | .lsrAcc => [0x4A]
  | .alrImm b => [0x4B, b]
  | .jmpAbs n => [0x4C, loByte n, hiByte n]
  | .eorAbs n => [0x4D, loByte n, hiByte n]
  | .lsrAbs n => [0x4E, loByte n, hiByte n]
  | .sreAbs n => [0x4F, loByte n, hiByte n]
  | .bvcRel b => [0x50, b]
  | .eorIzy b => [0x51, b]
  | .jamImp52 => [0x52]
  | .sreIzy b => [0x53, b]
  | .nopZpx54 b => [0x54, b]
  | .eorZpx b => [0x55, b]
  | .lsrZpx b => [0x56, b]
  | .sreZpx b => [0x57, b]
  | .cliImp => [0x58]
  | .eorAby n => [0x59, loByte n, hiByte n]
  | .nopImp5A => [0x5A]
  | .sreAby n => [0x5B, loByte n, hiByte n]
  | .nopAbx5C n => [0x5C, loByte n, hiByte n]
  | .eorAbx n => [0x5D, loByte n, hiByte n]
  | .lsrAbx n => [0x5E, loByte n, hiByte n]
  | .sreAbx n => [0x5F, loByte n, hiByte n]
  | .rtsImp => [0x60]
  | .adcIzx b => [0x61, b]
  | .jamImp62 => [0x62]
  | .rraIzx b => [0x63, b]
  | .nopZp64 b => [0x64, b]
  | .adcZp b => [0x65, b]
  | .rorZp b => [0x66, b]
  | .rraZp b => [0x67, b]
  | .plaImp => [0x68]
  | .adcImm b => [0x69, b]
  | .rorAcc => [0x6A]
  | .arrImm b => [0x6B, b]
  | .jmpInd n => [0x6C, loByte n, hiByte n]
  | .adcAbs n => [0x6D, loByte n, hiByte n]
  | .rorAbs n => [0x6E, loByte n, hiByte n]
  | .rraAbs n => [0x6F, loByte n, hiByte n]
  | .bvsRel b => [0x70, b]
  | .adcIzy b => [0x71, b]
  | .jamImp72 => [0x72]
  | .rraIzy b => [0x73, b]
  | .nopZpx74 b => [0x74, b]
  | .adcZpx b => [0x75, b]
  | .rorZpx b => [0x76, b]
  | .rraZpx b => [0x77, b]
  | .seiImp => [0x78]
  | .adcAby n => [0x79, loByte n, hiByte n]
  | .nopImp7A => [0x7A]
  | .rraAby n => [0x7B, loByte n, hiByte n]
  | .nopAbx7C n => [0x7C, loByte n, hiByte n]
  | .adcAbx n => [0x7D, loByte n, hiByte n]
  | .rorAbx n => [0x7E, loByte n, hiByte n]
  | .rraAbx n => [0x7F, loByte n, hiByte n]
  | .nopImm80 b => [0x80, b]
  | .staIzx b => [0x81, b]
  | .nopImm82 b => [0x82, b]
  | .saxIzx b => [0x83, b]
  | .styZp b => [0x84, b]
  | .staZp b => [0x85, b]
  | .stxZp b => [0x86, b]
  | .saxZp b => [0x87, b]
  | .deyImp => [0x88]
  | .nopImm89 b => [0x89, b]
  | .txaImp => [0x8A]
  | .xaaImm b => [0x8B, b]
  | .styAbs n => [0x8C, loByte n, hiByte n]
  | .staAbs n => [0x8D, loByte n, hiByte n]
  | .stxAbs n => [0x8E, loByte n, hiByte n]
  | .saxAbs n => [0x8F, loByte n, hiByte n]
  | .bccRel b => [0x90, b]
  | .staIzy b => [0x91, b]
  | .jamImp92 => [0x92]
  | .shaIzy b => [0x93, b]
  | .styZpx b => [0x94, b]
  | .staZpx b => [0x95, b]
  | .stxZpy b => [0x96, b]
  | .saxZpy b => [0x97, b]
  | .tyaImp => [0x98]
  | .staAby n => [0x99, loByte n, hiByte n]
  | .txsImp => [0x9A]
  | .tasAby n => [0x9B, loByte n, hiByte n]
  | .shyAbx n => [0x9C, loByte n, hiByte n]
  | .staAbx n => [0x9D, loByte n, hiByte n]
  | .shxAby n => [0x9E, loByte n, hiByte n]
  | .shaAby n => [0x9F, loByte n, hiByte n]
  | .ldyImm b => [0xA0, b]
  | .ldaIzx b => [0xA1, b]
  | .ldxImm b => [0xA2, b]
  | .laxIzx b => [0xA3, b]
  | .ldyZp b => [0xA4, b]
  | .ldaZp b => [0xA5, b]
  | .ldxZp b => [0xA6, b]
  | .laxZp b => [0xA7, b]
  | .tayImp => [0xA8]
  | .ldaImm b => [0xA9, b]
  | .taxImp => [0xAA]
  | .lxaImm b => [0xAB, b]
  | .ldyAbs n => [0xAC, loByte n, hiByte n]
  | .ldaAbs n => [0xAD, loByte n, hiByte n]
  | .ldxAbs n => [0xAE, loByte n, hiByte n]
  | .laxAbs n => [0xAF, loByte n, hiByte n]
  | .bcsRel b => [0xB0, b]
  | .ldaIzy b => [0xB1, b]
  | .jamImpB2 => [0xB2]
  | .laxIzy b => [0xB3, b]
  | .ldyZpx b => [0xB4, b]
  | .ldaZpx b => [0xB5, b]
  | .ldxZpy b => [0xB6, b]
  | .laxZpy b => [0xB7, b]
  | .clvImp => [0xB8]
  | .ldaAby n => [0xB9, loByte n, hiByte n]
  | .tsxImp => [0xBA]
  | .lasAby n => [0xBB, loByte n, hiByte n]
  | .ldyAbx n => [0xBC, loByte n, hiByte n]
  | .ldaAbx n => [0xBD, loByte n, hiByte n]
  | .ldxAby n => [0xBE, loByte n, hiByte n]
  | .laxAby n => [0xBF, loByte n, hiByte n]
  | .cpyImm b => [0xC0, b]
  | .cmpIzx b => [0xC1, b]
  | .nopImmC2 b => [0xC2, b]
  | .dcpIzx b => [0xC3, b]
  | .cpyZp b => [0xC4, b]
  | .cmpZp b => [0xC5, b]
  | .decZp b => [0xC6, b]
  | .dcpZp b => [0xC7, b]
  | .inyImp => [0xC8]
  | .cmpImm b => [0xC9, b]
  | .dexImp => [0xCA]
  | .axsImm b => [0xCB, b]
  | .cpyAbs n => [0xCC, loByte n, hiByte n]
  | .cmpAbs n => [0xCD, loByte n, hiByte n]
  | .decAbs n => [0xCE, loByte n, hiByte n]
  | .dcpAbs n => [0xCF, loByte n, hiByte n]
  | .bneRel b => [0xD0, b]
  | .cmpIzy b => [0xD1, b]
  | .jamImpD2 => [0xD2]
  | .dcpIzy b => [0xD3, b]
  | .nopZpxD4 b => [0xD4, b]
  | .cmpZpx b => [0xD5, b]
  | .decZpx b => [0xD6, b]
  | .dcpZpx b => [0xD7, b]
  | .cldImp => [0xD8]
  | .cmpAby n => [0xD9, loByte n, hiByte n]
  | .nopImpDA => [0xDA]
  | .dcpAby n => [0xDB, loByte n, hiByte n]
  | .nopAbxDC n => [0xDC, loByte n, hiByte n]
  | .cmpAbx n => [0xDD, loByte n, hiByte n]
  | .decAbx n => [0xDE, loByte n, hiByte n]
  | .dcpAbx n => [0xDF, loByte n, hiByte n]
  | .cpxImm b => [0xE0, b]
  | .sbcIzx b => [0xE1, b]
  | .nopImmE2 b => [0xE2, b]
  | .iscIzx b => [0xE3, b]
  | .cpxZp b => [0xE4, b]
  | .sbcZp b => [0xE5, b]
  | .incZp b => [0xE6, b]
  | .iscZp b => [0xE7, b]
  | .inxImp => [0xE8]
  | .sbcImm b => [0xE9, b]
  | .nopImp => [0xEA]
  | .sbcImmEB b => [0xEB, b]
  | .cpxAbs n => [0xEC, loByte n, hiByte n]
  | .sbcAbs n => [0xED, loByte n, hiByte n]
  | .incAbs n => [0xEE, loByte n, hiByte n]
  | .iscAbs n => [0xEF, loByte n, hiByte n]
  | .beqRel b => [0xF0, b]
  | .sbcIzy b => [0xF1, b]
  | .jamImpF2 => [0xF2]
  | .iscIzy b => [0xF3, b]
  | .nopZpxF4 b => [0xF4, b]
  | .sbcZpx b => [0xF5, b]
  | .incZpx b => [0xF6, b]
  | .iscZpx b => [0xF7, b]
  | .sedImp => [0xF8]
  | .sbcAby n => [0xF9, loByte n, hiByte n]
  | .nopImpFA => [0xFA]
  | .iscAby n => [0xFB, loByte n, hiByte n]
  | .nopAbxFC n => [0xFC, loByte n, hiByte n]
  | .sbcAbx n => [0xFD, loByte n, hiByte n]
  | .incAbx n => [0xFE, loByte n, hiByte n]
  | .iscAbx n => [0xFF, loByte n, hiByte n]

/-- The opcode byte of an instruction. -/
def Instr.opcode (i : Instr) : Byte := (encode i).headD 0

/-- The length in bytes of an instruction (rule R70). -/
def Instr.length (i : Instr) : Nat := (encode i).length

/-- Byte `k` of the table's number for an instruction: the table counts bit 0 as the least significant bit of the
first byte, and a later byte's bits count on from it. -/
def tableByte (nbits w k : Nat) : Byte := BitVec.ofNat 8 (w % 2 ^ nbits / 256 ^ k)

/-- The instruction this decoder reads from a row of spec/opcode_table.json whose bits are `w`: three bytes in memory
order, those above `nbits` zero. -/
def decodeTableWord (nbits w : Nat) : Option Instr :=
  match decode [tableByte nbits w 0, tableByte nbits w 1, tableByte nbits w 2] with
  | .ok r => some r.1
  | .error _ => none

end Sys2Proof
end

