-- ==== Sys2Proof/Machine/Bits.lean ====
section
/-! DEFINITION. Bit-field helpers (00_scope rule R5). -/

namespace Sys2Proof.Machine

/-- `b2n(c)`. -/
def b2n (c : Bool) : Nat := if c then 1 else 0

/-- `v[7]`, the sign bit of a byte. -/
def bit7 (v : Byte) : Bool := v.getLsbD 7

/-- `v[lo+len-1 : lo] <- x`: the bits of `v` outside the field are unchanged. -/
def putField {w len : Nat} (v : BitVec w) (lo : Nat) (x : BitVec len) : BitVec w :=
  (v &&& ~~~((BitVec.allOnes len).setWidth w <<< lo)) ||| (x.setWidth w <<< lo)

/-- `bit-reverse_8(v)` of 51_ppu rule R364. -/
def reverse8 (v : Byte) : Byte :=
  v.extractLsb' 0 1 ++ v.extractLsb' 1 1 ++ v.extractLsb' 2 1 ++ v.extractLsb' 3 1 ++
  v.extractLsb' 4 1 ++ v.extractLsb' 5 1 ++ v.extractLsb' 6 1 ++ v.extractLsb' 7 1

end Sys2Proof.Machine
end

