-- ==== Sys2Proof/Machine/State.lean ====
section
/-! DEFINITION. Every piece of state the spec gives the machine, as plain data, and the machine right after reset:
10_state (CPU), 50_bus rule R301, 51_ppu rule R330, 52_cartridge_sync rule R400, and the output port of the
Synchronizer (rule R421). -/

namespace Sys2Proof.Machine

/-! ## Memories -/

/-- A sparse memory of cells of `w` bits: pairs of an index and a value, in canonical form (`Store.wf`). A cell that
is not listed reads as zero (log 1). -/
abbrev Store (w : Nat) := List (Nat × BitVec w)

/-- A memory of bytes: a list of `Host.Cell`. -/
abbrev Memory := Store 8

/-- The canonical form from index `lo` on: indexes strictly rising, and no entry equal to zero. -/
def Store.wfFrom {w : Nat} (lo : Nat) : Store w → Bool
  | [] => true
  | (k, v) :: rest => decide (lo ≤ k) && v != 0 && Store.wfFrom (k + 1) rest

/-- The canonical form: indexes strictly rising, and no entry equal to zero, which an unlisted cell reads as. -/
def Store.wf {w : Nat} (m : Store w) : Bool := Store.wfFrom 0 m

/-- The canonical form of a memory of bytes. -/
def Memory.wf (m : Memory) : Bool := Store.wf m

/-! ## CPU (10_state) -/

/-- The seven stored flags (rule R13). `b` is stored, never written and never read (rule R15). -/
structure Flags where
  c : Bool
  z : Bool
  i : Bool
  d : Bool
  b : Bool
  v : Bool
  n : Bool
  deriving DecidableEq, Repr

/-- `halt_cause` (rules R22 and R443). `pc` is the address of the opcode byte. -/
inductive HaltCause where
  /-- an opcode of `HALT_OPCODES` (30_encoding rule R78) -/
  | illegalOpcode (pc : Word) (opcode : Byte)
  /-- opcode 0x00 under `BRK_MODE = halt` (46_system_flags rule R218) -/
  | brk (pc : Word)
  deriving DecidableEq, Repr

/-- The CPU's own state (rules R10 to R13, R20, R22, R23); it holds no other (rule R24). -/
structure Cpu where
  a : Byte
  x : Byte
  y : Byte
  s : Byte
  pc : Word
  p : Flags
  nmiPending : Bool
  halted : Bool
  haltCause : Option HaltCause
  cycles : Nat
  deriving DecidableEq, Repr

/-! ## Bus (50_bus) -/

/-- The state the Bus owns (rule R301). -/
structure Bus where
  ram : Memory
  buttons1 : Byte
  buttons2 : Byte
  shift1 : Byte
  shift2 : Byte
  strobe : Bool
  deriving DecidableEq, Repr

/-! ## Cartridge (52_cartridge_sync) -/

/-- The two mappers (rule R402). -/
inductive Mapper where
  /-- identifier 0, fixed mapping -/
  | fixed
  /-- identifier 2, one switchable 16 KB bank -/
  | banked
  deriving DecidableEq, Repr

/-- The mirroring mode (rule R412). -/
inductive Mirroring where
  | horizontal
  | vertical
  deriving DecidableEq, Repr

/-- The cartridge (rule R400). `prg` has `nPrg * 16384` bytes, `chr` 8192; `bank` is mapper 2's register. -/
structure Cartridge where
  prg : Memory
  nPrg : Nat
  chr : Memory
  chrIsRam : Bool
  mapper : Mapper
  mirroring : Mirroring
  bank : Byte
  deriving DecidableEq, Repr

/-! ## PPU (51_ppu) -/

/-- A sprite selected for the scanline being drawn (rule R330, `line_sprites`). -/
structure LineSprite where
  x : Byte
  attr : Byte
  lo : Byte
  hi : Byte
  isZero : Bool
  deriving DecidableEq, Repr

/-- A sprite selected for the next scanline, before its pattern fetch (rule R330, `next_sprites`). -/
structure NextSprite where
  y : Byte
  tile : Byte
  attr : Byte
  x : Byte
  isZero : Bool
  deriving DecidableEq, Repr

/-- The background shift registers and the next-tile latches (rules R330 and R354). -/
structure Background where
  patLo : BitVec 16
  patHi : BitVec 16
  attLo : BitVec 16
  attHi : BitVec 16
  ntLatch : Byte
  ptLoLatch : Byte
  ptHiLatch : Byte
  atLatch : BitVec 2
  deriving DecidableEq, Repr

/-- The PPU (rule R330). `scanline` stays in 0 to 261 and `cycle` in 0 to 340. -/
structure Ppu where
  vram : Memory
  palette : Store 6
  oam : Memory
  ctrl : Byte
  mask : Byte
  vblank : Bool
  sprite0Hit : Bool
  spriteOverflow : Bool
  oamAddr : Byte
  v : BitVec 15
  t : BitVec 15
  x : BitVec 3
  w : Bool
  readBuffer : Byte
  scanline : Nat
  cycle : Nat
  nmiRequest : Bool
  frameReady : Bool
  frame : Store 6
  bg : Background
  lineSprites : List LineSprite
  nextSprites : List NextSprite
  deriving DecidableEq, Repr

/-! ## The whole machine -/

/-- The machine. `params` are the session's constants (00_scope rule R4, log 6); `irqLine` is the level of the IRQ
input (10_state rule R21, log 7); `frameOut` and `framesReturned` are what `run_until_frame` has handed to the host
(52_cartridge_sync rules R420, R421, log 8); `draws` is the model's own counter of open-bus reads (log 2). -/
structure State where
  params : Params
  cpu : Cpu
  bus : Bus
  ppu : Ppu
  cart : Cartridge
  irqLine : Bool
  frameOut : Store 6
  framesReturned : Nat
  draws : Nat
  deriving DecidableEq, Repr

/-- Reasons a step could stop the machine for good. THERE IS NONE: 60_exceptions rule R440 lists every event of a
step and says there is no other exception; HALT is a state the machine stays in (rules R441 and R442, log 4), and
rules R467 and R468 keep AddressingFault and LoadError out of `step`. Safe: no behaviour is cut off. -/
inductive Fault
  deriving DecidableEq, Repr

/-- Reasons the model would decline to run an instruction. -/
inductive Refusal where
  /-- an instruction of the table without a meaning, by its mnemonic; raised by `exec`'s arms only. Safe. No arm
  raises it: every instruction has its meaning. -/
  | notModelled (mnemonic : String)
  deriving DecidableEq, Repr

/-- The outcome of running an instruction or a step. -/
abbrev Out := Host.Outcome State Fault Refusal

/-! ## Reset (70_reset_and_hazards rules R480 and R481) -/

/-- The flags after reset (10_state rule R26): only `I` is set. -/
def Flags.reset : Flags :=
  { c := false, z := false, i := true, d := false, b := false, v := false, n := false }

/-- The CPU after reset, but for `PC`, which is the reset vector's value (rule R480). -/
def Cpu.reset (pc : Word) : Cpu :=
  { a := 0x00, x := 0x00, y := 0x00, s := 0xFD, pc := pc, p := Flags.reset
    nmiPending := false, halted := false, haltCause := none, cycles := 0 }

/-- The Bus after power-up (50_bus rule R310); the unspecified RAM reads as zero (log 1). -/
def Bus.reset : Bus :=
  { ram := [], buttons1 := 0, buttons2 := 0, shift1 := 0, shift2 := 0, strobe := false }

/-- The shift registers and latches after power-up (51_ppu rule R370). -/
def Background.reset : Background :=
  { patLo := 0, patHi := 0, attLo := 0, attHi := 0, ntLatch := 0, ptLoLatch := 0, ptHiLatch := 0, atLatch := 0 }

/-- The PPU after power-up (51_ppu rule R370); its unspecified memories read as zero (log 1). -/
def Ppu.reset : Ppu :=
  { vram := [], palette := [], oam := [], ctrl := 0, mask := 0, vblank := false, sprite0Hit := false
    spriteOverflow := false, oamAddr := 0, v := 0, t := 0, x := 0, w := false, readBuffer := 0
    scanline := 0, cycle := 0, nmiRequest := false, frameReady := false, frame := []
    bg := Background.reset, lineSprites := [], nextSprites := [] }

/-- The cartridge of a machine for which no image was loaded: one program bank of zeros, graphics RAM, mapper 0,
horizontal mirroring (DESIGN CHOICE, log 3). -/
def Cartridge.blank : Cartridge :=
  { prg := [], nPrg := 1, chr := [], chrIsRam := true, mapper := .fixed, mirroring := .horizontal, bank := 0 }

/-- The machine right after reset (rules R480 and R481) with the normative parameters and no image loaded. `PC` is
what the reset vector reads in the blank cartridge. `powerUp` (Machine/Session.lean) is reset with an image. -/
def State.reset : State :=
  { params := Params.normative, cpu := Cpu.reset 0x0000, bus := Bus.reset, ppu := Ppu.reset, cart := Cartridge.blank
    irqLine := false, frameOut := [], framesReturned := 0, draws := 0 }

end Sys2Proof.Machine
end

