-- ==== Sys2Proof/Machine/Mem.lean ====
section
/-! DEFINITION. Reading and writing one cell of a sparse memory. A write keeps the canonical form `Store.wf`. -/

namespace Sys2Proof.Machine

/-- The cell with index `k`; a cell that is not listed reads as zero (log 1). -/
def readCell {w : Nat} : Store w → Nat → BitVec w
  | [], _ => 0
  | (k', v) :: rest, k => if k = k' then v else readCell rest k

/-- The memory with cell `k` holding `v`: a zero is not listed. -/
def writeCell {w : Nat} : Store w → Nat → BitVec w → Store w
  | [], k, v => if v = 0 then [] else [(k, v)]
  | (k', v') :: rest, k, v =>
    if k < k' then (if v = 0 then (k', v') :: rest else (k, v) :: (k', v') :: rest)
    else if k = k' then (if v = 0 then rest else (k, v) :: rest)
    else (k', v') :: writeCell rest k v

/-- A memory whose cells from `base` on hold the bytes of a list; the others read as zero. -/
def memoryOfBytes (base : Nat) : List Byte → Memory
  | [] => []
  | v :: rest => if v = 0 then memoryOfBytes (base + 1) rest else (base, v) :: memoryOfBytes (base + 1) rest

end Sys2Proof.Machine
end

