-- ==== Sys2Proof/Machine/Mapper.lean ====
section
/-! DEFINITION. The cartridge's four operations (52_cartridge_sync rules R401 to R409). -/

namespace Sys2Proof.Machine

/-- One program-data unit (rule R400). -/
def prgUnit : Nat := 16384

/-- Where in `prg` the CPU address `a` points, or none where the mapper maps nothing, which is open bus: mapper 0 by
rule R404, mapper 2 by rule R408. -/
def prgIndex (c : Cartridge) (a : Word) : Option Nat :=
  if a < 0x8000 then none
  else
    match c.mapper with
    | .fixed => some ((a.toNat - 0x8000) % (c.nPrg * prgUnit))
    | .banked =>
      if a < 0xC000 then some (c.bank.toNat % c.nPrg * prgUnit + a.toNat % prgUnit)
      else some ((c.nPrg - 1) * prgUnit + a.toNat % prgUnit)

/-- `cpu_read(a)` of the cartridge; none is an open-bus read (rules R404 and R408). -/
def cartCpuRead (c : Cartridge) (a : Word) : Option Byte :=
  (prgIndex c a).map (readCell c.prg)

/-- `cpu_write(a, v)` of the cartridge: mapper 0 ignores it (rule R405), mapper 2 takes the byte as its bank from
0x8000 up (rule R409). -/
def cartCpuWrite (c : Cartridge) (a : Word) (v : Byte) : Cartridge :=
  match c.mapper with
  | .fixed => c
  | .banked => if a < 0x8000 then c else { c with bank := v }

/-- `ppu_read(a)` of the cartridge: `chr[a & 0x1FFF]` (rule R406). -/
def cartPpuRead (c : Cartridge) (a : Word) : Byte :=
  readCell c.chr (a &&& 0x1FFF).toNat

/-- `ppu_write(a, v)` of the cartridge: graphics RAM only (rule R406). -/
def cartPpuWrite (c : Cartridge) (a : Word) (v : Byte) : Cartridge :=
  if c.chrIsRam then { c with chr := writeCell c.chr (a &&& 0x1FFF).toNat v } else c

end Sys2Proof.Machine
end

