-- ==== Sys2Proof/Machine/PpuSpace.lean ====
section
/-! DEFINITION. The PPU-private address space (51_ppu rules R333 to R337). Addresses are words; every operation
first reduces them to 14 bits. -/

namespace Sys2Proof.Machine

/-- The index in `vram` of a nametable address 0x2000 to 0x3EFF (rule R334). -/
def nametableIndex (m : Mirroring) (a : Word) : Nat :=
  let i := (a.toNat - 0x2000) % 0x1000
  let table := i / 0x400
  let off := i % 0x400
  match m with
  | .vertical => table % 2 * 0x400 + off
  | .horizontal => table / 2 * 0x400 + off

/-- The index in `palette` of an address 0x3F00 to 0x3FFF, with the four aliases (rule R335). -/
def paletteIndex (a : Word) : Nat :=
  let p := a.toNat % 0x20
  if p = 0x10 ∨ p = 0x14 ∨ p = 0x18 ∨ p = 0x1C then p - 0x10 else p

/-- A palette entry as the PPU reads it: six bits, the low four cleared under greyscale (rule R336). -/
def paletteEntry (p : Ppu) (a : Word) : BitVec 6 :=
  readCell p.palette (paletteIndex a) &&& (if p.mask.getLsbD 0 then 0x30 else 0x3F)

/-- `ppu_read(a)` (rule R336); it has no side effect. -/
def ppuRead (c : Cartridge) (p : Ppu) (a : Word) : Byte :=
  let a := a &&& 0x3FFF
  if a < 0x2000 then cartPpuRead c a
  else if a < 0x3F00 then readCell p.vram (nametableIndex c.mirroring a)
  else (paletteEntry p a).setWidth 8

/-- `ppu_write(a, d)` (rule R337). -/
def ppuWrite (a : Word) (d : Byte) (s : State) : State :=
  let a := a &&& 0x3FFF
  if a < 0x2000 then { s with cart := cartPpuWrite s.cart a d }
  else if a < 0x3F00 then
    { s with ppu := { s.ppu with vram := writeCell s.ppu.vram (nametableIndex s.cart.mirroring a) d } }
  else
    { s with ppu := { s.ppu with palette := writeCell s.ppu.palette (paletteIndex a) (d.setWidth 6) } }

end Sys2Proof.Machine
end

