-- ==== Sys2Proof/Machine/PpuRegs.lean ====
section
/-! DEFINITION. The eight CPU-visible PPU registers (51_ppu rules R340 to R348) and the open-bus read
(50_bus rule R308). -/

namespace Sys2Proof.Machine

/-- A read and the machine after it. -/
structure Read where
  val : Byte
  st : State

/-- A read of an open-bus address: the next free value (50_bus rule R308, log 2). No state of the spec changes. -/
def openBusRead (a : Word) (s : State) : Read :=
  { val := openBusValue a s.draws, st := { s with draws := s.draws + 1 } }

/-- The register offset of a CPU address 0x2000 to 0x3FFF (rule R340). -/
def ppuRegister (a : Word) : BitVec 3 := a.setWidth 3

/-- The amount a data-register access adds to `v` (rule R347). -/
def vIncrement (p : Ppu) : BitVec 15 := if p.ctrl.getLsbD 2 then 32 else 1

/-- `v <- (v + inc) mod 2^15` (rule R347). -/
def stepV (p : Ppu) : Ppu := { p with v := p.v + vIncrement p }

/-- PPUSTATUS read (rule R343): the three flags over five open-bus bits, then `vblank` and `w` are cleared. -/
def statusRead (a : Word) (s : State) : Read :=
  let ob := openBusRead a s
  { val := BitVec.ofBool s.ppu.vblank ++ BitVec.ofBool s.ppu.sprite0Hit ++ BitVec.ofBool s.ppu.spriteOverflow ++
      ob.val.extractLsb' 0 5
    st := { ob.st with ppu := { s.ppu with vblank := false, w := false } } }

/-- The PPU-private address of a data-register access: `v & 0x3FFF` (rules R339, R347). -/
def dataAddress (p : Ppu) : Word := p.v.setWidth 16 &&& 0x3FFF

/-- PPUDATA read (rule R347): delayed by one read below the palette, immediate in it. -/
def dataRead (s : State) : Read :=
  let p := s.ppu
  let a := dataAddress p
  if a < 0x3F00 then
    { val := p.readBuffer, st := { s with ppu := stepV { p with readBuffer := ppuRead s.cart p a } } }
  else
    { val := ppuRead s.cart p a
      st := { s with ppu := stepV { p with readBuffer := ppuRead s.cart p (a - 0x1000) } } }

/-- PPUDATA write (rule R347). -/
def dataWrite (d : Byte) (s : State) : State :=
  let s1 := ppuWrite (dataAddress s.ppu) d s
  { s1 with ppu := stepV s1.ppu }

/-- A CPU read of the register window (rule R340): write-only registers are open bus. -/
def ppuRegRead (a : Word) (s : State) : Read :=
  if ppuRegister a = 2 then statusRead a s
  else if ppuRegister a = 4 then { val := readCell s.ppu.oam s.ppu.oamAddr.toNat, st := s }
  else if ppuRegister a = 7 then dataRead s
  else openBusRead a s

/-- PPUCTRL write (rule R341): `ctrl <- d; t[11:10] <- d[1:0]`. -/
def ctrlWrite (d : Byte) (p : Ppu) : Ppu :=
  { p with ctrl := d, t := putField p.t 10 (d.extractLsb' 0 2) }

/-- OAMDATA write (rule R345). -/
def oamDataWrite (d : Byte) (p : Ppu) : Ppu :=
  { p with oam := writeCell p.oam p.oamAddr.toNat d, oamAddr := p.oamAddr + 1 }

/-- PPUSCROLL write (rule R346): horizontal first, then vertical. -/
def scrollWrite (d : Byte) (p : Ppu) : Ppu :=
  if p.w then
    { p with t := putField (putField p.t 12 (d.extractLsb' 0 3)) 5 (d.extractLsb' 3 5), w := false }
  else
    { p with t := putField p.t 0 (d.extractLsb' 3 5), x := d.extractLsb' 0 3, w := true }

/-- PPUADDR write (rule R348): the high six bits and a cleared bit 14 first, then the low byte, and `v <- t`. -/
def addrWrite (d : Byte) (p : Ppu) : Ppu :=
  if p.w then
    let t := putField p.t 0 d
    { p with t := t, v := t, w := false }
  else
    { p with t := putField (putField p.t 8 (d.extractLsb' 0 6)) 14 (0#1), w := true }

/-- A CPU write of the register window (rule R340); a write of PPUSTATUS has no effect. -/
def ppuRegWrite (a : Word) (d : Byte) (s : State) : State :=
  if ppuRegister a = 0 then { s with ppu := ctrlWrite d s.ppu }
  else if ppuRegister a = 1 then { s with ppu := { s.ppu with mask := d } }
  else if ppuRegister a = 2 then s
  else if ppuRegister a = 3 then { s with ppu := { s.ppu with oamAddr := d } }
  else if ppuRegister a = 4 then { s with ppu := oamDataWrite d s.ppu }
  else if ppuRegister a = 5 then { s with ppu := scrollWrite d s.ppu }
  else if ppuRegister a = 6 then { s with ppu := addrWrite d s.ppu }
  else dataWrite d s

end Sys2Proof.Machine
end

