-- ==== Sys2Proof/Machine/BusAccess.lean ====
section
/-! DEFINITION. The bus: the address map and the controller ports (50_bus rules R300 to R309). `busRead` and
`busWrite` are the CPU's `MemRead(addr, 1)` and `MemWrite(addr, 1, v)` (20_memory rule R40). -/

namespace Sys2Proof.Machine

/-- The index in `ram` of a CPU address 0x0000 to 0x1FFF (rule R302). -/
def ramIndex (a : Word) : Nat := (a &&& 0x07FF).toNat

/-- The serial bit of a controller port, as the byte a read returns (rule R305). -/
def serialByte (shift : Byte) : Byte := (shift.extractLsb' 0 1).setWidth 8

/-- The shift register after a read while the strobe is low (rule R305). -/
def shiftOut (shift : Byte) : Byte := (shift >>> 1) ||| 0x80

/-- `read(0x4016)` (rule R305). -/
def port1Read (s : State) : Read :=
  if s.bus.strobe then
    { val := serialByte s.bus.buttons1, st := { s with bus := { s.bus with shift1 := s.bus.buttons1 } } }
  else
    { val := serialByte s.bus.shift1, st := { s with bus := { s.bus with shift1 := shiftOut s.bus.shift1 } } }

/-- `read(0x4017)` (rule R305). -/
def port2Read (s : State) : Read :=
  if s.bus.strobe then
    { val := serialByte s.bus.buttons2, st := { s with bus := { s.bus with shift2 := s.bus.buttons2 } } }
  else
    { val := serialByte s.bus.shift2, st := { s with bus := { s.bus with shift2 := shiftOut s.bus.shift2 } } }

/-- `write(0x4016, v)` (rule R304). -/
def strobeWrite (v : Byte) (b : Bus) : Bus :=
  if v.getLsbD 0 then { b with strobe := true, shift1 := b.buttons1, shift2 := b.buttons2 }
  else { b with strobe := false }

/-- `MemRead(a, 1)`: the rows of rule R300, top to bottom. -/
def busRead (a : Word) (s : State) : Read :=
  if a < 0x2000 then { val := readCell s.bus.ram (ramIndex a), st := s }
  else if a < 0x4000 then ppuRegRead a s
  else if a = 0x4016 then port1Read s
  else if a = 0x4017 then port2Read s
  else
    match cartCpuRead s.cart a with
    | some v => { val := v, st := s }
    | none => openBusRead a s

/-- `MemWrite(a, 1, v)`: the rows of rule R300; 0x4017 and open-bus addresses take no write (rules R306, R308). -/
def busWrite (a : Word) (v : Byte) (s : State) : State :=
  if a < 0x2000 then { s with bus := { s.bus with ram := writeCell s.bus.ram (ramIndex a) v } }
  else if a < 0x4000 then ppuRegWrite a v s
  else if a = 0x4016 then { s with bus := strobeWrite v s.bus }
  else if a = 0x4017 then s
  else { s with cart := cartCpuWrite s.cart a v }

/-- What a read of `a` would return where that read has no side effect and is no free value: RAM and mapped program
data (rules R302, R404, R408); none elsewhere. It is the model's view of one byte of memory. -/
def peek (a : Word) (s : State) : Option Byte :=
  if a < 0x2000 then some (readCell s.bus.ram (ramIndex a))
  else cartCpuRead s.cart a

end Sys2Proof.Machine
end

