-- ==== Sys2Proof/Machine/Flags.lean ====
section
/-! DEFINITION. Every flag computation and the arithmetic cores (10_state rules R17 and R18; 43_logic_arith rules
R158, R160, R161; 44_incdec_shift; 47_undocumented rules R239 to R242). They are functions of the CPU's own state. -/

namespace Sys2Proof.Machine

/-! ## The packed status -/

/-- `pack(P, b)` (10_state rule R17): N V 1 b D I Z C, bit 7 first. -/
def pack (p : Flags) (b : Bool) : Byte :=
  BitVec.ofBool p.n ++ BitVec.ofBool p.v ++ (1#1) ++ BitVec.ofBool b ++
  BitVec.ofBool p.d ++ BitVec.ofBool p.i ++ BitVec.ofBool p.z ++ BitVec.ofBool p.c

/-- `unpack(v)` (10_state rule R18): bits 5 and 4 are ignored and `B` is not written. -/
def unpack (v : Byte) (p : Flags) : Flags :=
  { p with n := v.getLsbD 7, v := v.getLsbD 6, d := v.getLsbD 3, i := v.getLsbD 2, z := v.getLsbD 1, c := v.getLsbD 0 }

/-! ## Single flags and registers -/

/-- `SetNZ(v)` (00_scope rule R6). -/
def setNZ (v : Byte) (c : Cpu) : Cpu := { c with p := { c.p with z := v == 0, n := bit7 v } }

/-- `C <- f`. -/
def setC (f : Bool) (c : Cpu) : Cpu := { c with p := { c.p with c := f } }

/-- `V <- f`. -/
def setV (f : Bool) (c : Cpu) : Cpu := { c with p := { c.p with v := f } }

/-- `I <- f`. -/
def setI (f : Bool) (c : Cpu) : Cpu := { c with p := { c.p with i := f } }

/-- `D <- f`. -/
def setD (f : Bool) (c : Cpu) : Cpu := { c with p := { c.p with d := f } }

/-- `A <- v`. -/
def setA (v : Byte) (c : Cpu) : Cpu := { c with a := v }

/-- `X <- v`. -/
def setX (v : Byte) (c : Cpu) : Cpu := { c with x := v }

/-- `Y <- v`. -/
def setY (v : Byte) (c : Cpu) : Cpu := { c with y := v }

/-- `S <- v`. -/
def setS (v : Byte) (c : Cpu) : Cpu := { c with s := v }

/-- `PC <- w`. -/
def setPc (w : Word) (c : Cpu) : Cpu := { c with pc := w }

/-- `A <- v; SetNZ(v)`. -/
def loadA (v : Byte) (c : Cpu) : Cpu := setNZ v (setA v c)

/-- `X <- v; SetNZ(v)`. -/
def loadX (v : Byte) (c : Cpu) : Cpu := setNZ v (setX v c)

/-- `Y <- v; SetNZ(v)`. -/
def loadY (v : Byte) (c : Cpu) : Cpu := setNZ v (setY v c)

/-! ## Compare and bit test -/

/-- `Compare(r, m)` (rule R161): always binary, `V` not written. -/
def compareCore (r m : Byte) (c : Cpu) : Cpu := setNZ (r - m) (setC (decide (m ≤ r)) c)

/-- The flags of BIT (rule R153): Z from `A & m`, N and V from `m` itself. -/
def bitTest (m : Byte) (c : Cpu) : Cpu :=
  { c with p := { c.p with z := (c.a &&& m) == 0, n := bit7 m, v := m.getLsbD 6 } }

/-! ## Addition and subtraction -/

/-- `V` of an addition: the operands have the same sign and `r`'s differs (rule R158). -/
def addOverflow (a m r : Byte) : Bool := bit7 (~~~(a ^^^ m) &&& (a ^^^ r))

/-- `V` of a subtraction: the operands have different signs and `r`'s differs from `a`'s (rule R160). -/
def subOverflow (a m r : Byte) : Bool := bit7 ((a ^^^ m) &&& (a ^^^ r))

/-- The binary case of `AddCore(m)` (rule R158). -/
def addBinary (m : Byte) (c : Cpu) : Cpu :=
  let sum := c.a.toNat + m.toNat + b2n c.p.c
  let r := BitVec.ofNat 8 sum
  loadA r (setC (decide (0xFF < sum)) (setV (addOverflow c.a m r) c))

/-- `al` of the decimal case of rule R158: the low digits' sum after its correction, with the carry at 0x10. -/
def decimalLowSum (a m : Byte) (carry : Bool) : Nat :=
  let al := a.toNat % 16 + m.toNat % 16 + b2n carry
  if 0x0A ≤ al then (al + 0x06) % 16 + 0x10 else al

/-- `t` of the decimal case of rule R158, before the high digit's correction. -/
def decimalSum (a m : Byte) (carry : Bool) : Nat :=
  a.toNat / 16 * 16 + m.toNat / 16 * 16 + decimalLowSum a m carry

/-- The decimal case of `AddCore(m)` (rule R158): Z from the binary sum, N and V before the high digit's correction. -/
def addDecimal (m : Byte) (c : Cpu) : Cpu :=
  let bin := BitVec.ofNat 8 (c.a.toNat + m.toNat + b2n c.p.c)
  let t := decimalSum c.a m c.p.c
  let t' := if 0xA0 ≤ t then t + 0x60 else t
  { c with
    a := BitVec.ofNat 8 t'
    p := { c.p with
      n := bit7 (BitVec.ofNat 8 t), v := addOverflow c.a m (BitVec.ofNat 8 t)
      c := decide (0x100 ≤ t'), z := bin == 0 } }

/-- `AddCore(m)` (rule R158); `dec` is `DECIMAL_ENABLED`. -/
def addCore (dec : Bool) (m : Byte) (c : Cpu) : Cpu :=
  if c.p.d && dec then addDecimal m c else addBinary m c

/-- `d` of rule R160, the exact binary difference. -/
def exactDifference (a m : Byte) (carry : Bool) : Int :=
  (a.toNat : Int) - m.toNat - (1 - b2n carry)

/-- `t` of the decimal case of rule R160, after both corrections. -/
def decimalDifference (a m : Byte) (carry : Bool) : Int :=
  let al : Int := (a.toNat % 16 : Nat) - (m.toNat % 16 : Nat) - (1 - b2n carry)
  let al := if al < 0 then (al - 0x06) % 16 - 0x10 else al
  let t : Int := (a.toNat / 16 * 16 : Nat) - (m.toNat / 16 * 16 : Nat) + al
  if t < 0 then t - 0x60 else t

/-- `SubCore(m)` (rule R160): the flags always from the binary difference; `dec` is `DECIMAL_ENABLED`. -/
def subCore (dec : Bool) (m : Byte) (c : Cpu) : Cpu :=
  let d := exactDifference c.a m c.p.c
  let r := BitVec.ofInt 8 d
  let a' := if c.p.d && dec then BitVec.ofInt 8 (decimalDifference c.a m c.p.c) else r
  { c with
    a := a'
    p := { c.p with c := decide (0 ≤ d), v := subOverflow c.a m r, z := r == 0, n := bit7 r } }

/-! ## Shifts and rotates (44_incdec_shift rules R176 to R179) -/

/-- `(m << 1)[7:0]` (rule R176). -/
def shiftLeft (m : Byte) : Byte := m <<< 1

/-- `m >> 1` (rule R177). -/
def shiftRight (m : Byte) : Byte := m >>> 1

/-- `((m << 1) | c0)[7:0]` (rule R178). -/
def rotateLeft (m : Byte) (c0 : Bool) : Byte := (m <<< 1) ||| (BitVec.ofBool c0).setWidth 8

/-- `(m >> 1) | (c0 << 7)` (rule R179). -/
def rotateRight (m : Byte) (c0 : Bool) : Byte := (m >>> 1) ||| ((BitVec.ofBool c0).setWidth 8 <<< 7)

/-! ## The immediate combinations (47_undocumented) -/

/-- ANC (rule R239). -/
def ancCore (m : Byte) (c : Cpu) : Cpu :=
  let r := c.a &&& m
  setC (bit7 r) (loadA r c)

/-- ALR (rule R240). -/
def alrCore (m : Byte) (c : Cpu) : Cpu :=
  let t := c.a &&& m
  loadA (shiftRight t) (setC (t.getLsbD 0) c)

/-- The result byte of ARR's decimal variant (rule R241): the rotated byte `r` with its digits corrected. -/
def arrDecimalResult (t r : Byte) : Byte :=
  let r1 := if 5 < t.toNat % 16 + t.toNat % 2 then (r &&& 0xF0) ||| ((r + 6) &&& 0x0F) else r
  if 5 < t.toNat / 16 + t.toNat / 16 % 2 then r1 + 0x60 else r1

/-- ARR (rule R241); `dec` is `DECIMAL_ENABLED`. The decimal variant is modelled as the rule gives it (log 11). -/
def arrCore (dec : Bool) (m : Byte) (c : Cpu) : Cpu :=
  let t := c.a &&& m
  let r := rotateRight t c.p.c
  if c.p.d && dec then
    { c with
      a := arrDecimalResult t r
      p := { c.p with
        n := c.p.c, z := r == 0, v := t.getLsbD 6 != r.getLsbD 6
        c := decide (5 < t.toNat / 16 + t.toNat / 16 % 2) } }
  else setV (r.getLsbD 6 != r.getLsbD 5) (setC (r.getLsbD 6) (loadA r c))

/-- AXS (rule R242): `X <- (A & X) - m`, flags as a compare. -/
def axsCore (m : Byte) (c : Cpu) : Cpu :=
  let t := c.a &&& c.x
  setX (t - m) (compareCore t m c)

/-- LAS (rule R244). -/
def lasCore (m : Byte) (c : Cpu) : Cpu :=
  let v := m &&& c.s
  setNZ v { c with a := v, x := v, s := v }

end Sys2Proof.Machine
end

