-- ==== Sys2Proof/Machine/Ops.lean ====
section
/-! DEFINITION. The named operations the meanings are made of: the cost counter, word reads, the stack
(20_memory rules R45 to R47), HALT (60_exceptions rule R441), taking an interrupt (rule R449) and the return from it
(46_system_flags rule R220). -/

namespace Sys2Proof.Machine

/-- A change of the CPU's own registers and flags. -/
def mapCpu (f : Cpu → Cpu) (s : State) : State := { s with cpu := f s.cpu }

/-- `cycles <- cycles + n` (30_encoding rule R72 line 12). The cost of a step is what it adds to `cycles`. -/
def charge (n : Nat) (s : State) : State := { s with cpu := { s.cpu with cycles := s.cpu.cycles + n } }

/-- `MemRead16(addr)` (00_scope rule R6): two byte reads, low byte first. -/
structure Read16 where
  val : Word
  st : State

/-- Two byte reads, the low byte's address first (20_memory rule R42). -/
def readPair (lo hi : Word) (s : State) : Read16 :=
  let r1 := busRead lo s
  let r2 := busRead hi r1.st
  { val := mkWord r2.val r1.val, st := r2.st }

/-- See `Read16`. -/
def memRead16 (a : Word) (s : State) : Read16 := readPair a (a + 1) s

/-! ## The stack -/

/-- `0x0100 | S` (20_memory rule R45). -/
def stackAddress (sp : Byte) : Word := stackPage ||| sp.setWidth 16

/-- `Push(v)` (20_memory rule R46): store, then decrement `S` modulo 256. -/
def push (v : Byte) (s : State) : State :=
  let s1 := busWrite (stackAddress s.cpu.s) v s
  mapCpu (setS (s1.cpu.s - 1)) s1

/-- `Pull()` (20_memory rule R47): increment `S` modulo 256, then load. -/
def pull (s : State) : Read :=
  let s1 := mapCpu (setS (s.cpu.s + 1)) s
  busRead (stackAddress s1.cpu.s) s1

/-- Push the high byte, then the low byte. -/
def pushWord (w : Word) (s : State) : State := push (loByte w) (push (hiByte w) s)

/-- Pull the low byte, then the high byte. -/
def pullWord (s : State) : Read16 :=
  let r1 := pull s
  let r2 := pull r1.st
  { val := mkWord r2.val r1.val, st := r2.st }

/-! ## HALT (60_exceptions rule R441) -/

/-- `raise HALT(cause)`: `halted` and `halt_cause` are set and nothing else changes; `PC` stays at the opcode's
address, `pc0`. The cost is 0. -/
def raiseHalt (pc0 : Word) (cause : HaltCause) (s : State) : State :=
  { s with cpu := { s.cpu with pc := pc0, halted := true, haltCause := some cause } }

/-- The address of the opcode byte of an instruction of which only that byte was fetched. -/
def opcodeAddress (s : State) : Word := s.cpu.pc - 1

/-- `raise HALT(IllegalOpcode(PC0, opcode))` (30_encoding rule R78). -/
def haltIllegal (opcode : Byte) (s : State) : Out :=
  .next (raiseHalt (opcodeAddress s) (.illegalOpcode (opcodeAddress s) opcode) s)

/-- `raise HALT(Break(PC0))` (46_system_flags rule R218). -/
def haltBreak (s : State) : Out :=
  .next (raiseHalt (opcodeAddress s) (.brk (opcodeAddress s)) s)

/-! ## Taking an interrupt, and returning -/

/-- `InterruptEntry(vec, b)` (60_exceptions rule R449): `PC` and the packed status pushed, `I` set, `PC` loaded from
the vector. Shared by NMI, IRQ and BRK. -/
def interruptEntry (vec : Word) (b : Bool) (s : State) : State :=
  let s1 := pushWord s.cpu.pc s
  let s2 := push (pack s1.cpu.p b) s1
  let s3 := mapCpu (setI true) s2
  let r := memRead16 vec s3
  mapCpu (setPc r.val) r.st

/-- NMI servicing (60_exceptions rule R447). -/
def serviceNmi (s : State) : State :=
  charge intCycles (interruptEntry vecNmi false (mapCpu (fun c => { c with nmiPending := false }) s))

/-- IRQ servicing (60_exceptions rule R448). -/
def serviceIrq (s : State) : State := charge intCycles (interruptEntry vecIrq false s)

/-- The state part of RTI (46_system_flags rule R220): the status, then `PC`, without adding 1. -/
def returnFromInterrupt (s : State) : State :=
  let r := pull s
  let s1 := mapCpu (fun c => { c with p := unpack r.val c.p }) r.st
  let w := pullWord s1
  mapCpu (setPc w.val) w.st

end Sys2Proof.Machine
end

