-- ==== Sys2Proof/Machine/Placement.lean ====
section
/-! DEFINITION. Placing an instruction's bytes where the next fetch reads them: the part of a program's load that
`State.withFetchWord` (Machine/Step.lean) is made of (log 13). -/

namespace Sys2Proof.Machine

/-- Whether an address is backed by RAM or by program data. -/
def placeable (c : Cartridge) (a : Word) : Bool := a < 0x2000 || (prgIndex c a).isSome

/-- The machine with byte `v` stored behind address `a`: in RAM, or in the program image. -/
def placeByte (a : Word) (v : Byte) (s : State) : State :=
  if a < 0x2000 then { s with bus := { s.bus with ram := writeCell s.bus.ram (ramIndex a) v } }
  else
    match prgIndex s.cart a with
    | some k => { s with cart := { s.cart with prg := writeCell s.cart.prg k v } }
    | none => s

/-- Where the instruction is placed: at `PC`, or at 0x0000 where `PC` or one of the next two addresses is no memory. -/
def placementAddress (s : State) : Word :=
  if placeable s.cart s.cpu.pc && placeable s.cart (s.cpu.pc + 1) && placeable s.cart (s.cpu.pc + 2) then s.cpu.pc
  else 0x0000

/-- The machine about to fetch at `a` with nothing that would keep it from fetching: not halted, no interrupt. -/
def readyToFetch (a : Word) (s : State) : State :=
  { s with
    cpu := { s.cpu with pc := a, halted := false, haltCause := none, nmiPending := false }
    ppu := { s.ppu with nmiRequest := false }
    irqLine := s.irqLine && s.cpu.p.i }

/-- Three bytes placed at the next fetch. -/
def placeInstruction (b0 b1 b2 : Byte) (s : State) : State :=
  let a := placementAddress s
  placeByte (a + 2) b2 (placeByte (a + 1) b1 (placeByte a b0 (readyToFetch a s)))

end Sys2Proof.Machine
end

