-- ==== Sys2Proof/Machine/Operands.lean ====
section
/-! DEFINITION. The addressing modes (40_addressing rules R91 to R104) and the operand access classes (rule R107),
with the cost rule (R105): a meaning gives its base cost and whether it pays the page-cross cycle. -/

namespace Sys2Proof.Machine

/-! ## Addressing modes -/

/-- The eight modes that give an effective address of data, with their operand (rules R94 to R102). -/
inductive MemMode where
  | zp (b : Byte)
  | zpx (b : Byte)
  | zpy (b : Byte)
  | abs (n : Word)
  | abx (n : Word)
  | aby (n : Word)
  | izx (b : Byte)
  | izy (b : Byte)
  deriving DecidableEq, Repr

/-- What an addressing mode gives: `ea`, `crossed`, and the machine after the mode's pointer reads. -/
structure Resolved where
  ea : Word
  crossed : Bool
  st : State

/-- `{0x00, b}`: an address in page 0 (rule R94). -/
def zeroPage (b : Byte) : Word := b.setWidth 16

/-- "A page boundary was crossed" (rule R104): the high bytes differ. -/
def pageCrossed (base ea : Word) : Bool := hiByte ea != hiByte base

/-- A pointer in page 0; its second byte wraps inside the page (rules R98, R99). -/
def zeroPagePointer (z : Byte) (s : State) : Read16 := readPair (zeroPage z) (zeroPage (z + 1)) s

/-- `base +_16 index` (rules R99, R101, R102). -/
def indexed (base : Word) (index : Byte) (s : State) : Resolved :=
  let ea := base + index.setWidth 16
  { ea := ea, crossed := pageCrossed base ea, st := s }

/-- The mode rules R94 to R102. -/
def resolve (m : MemMode) (s : State) : Resolved :=
  match m with
  | .zp b => { ea := zeroPage b, crossed := false, st := s }
  | .zpx b => { ea := zeroPage (b + s.cpu.x), crossed := false, st := s }
  | .zpy b => { ea := zeroPage (b + s.cpu.y), crossed := false, st := s }
  | .abs n => { ea := n, crossed := false, st := s }
  | .abx n => indexed n s.cpu.x s
  | .aby n => indexed n s.cpu.y s
  | .izx b =>
    let r := zeroPagePointer (b + s.cpu.x) s
    { ea := r.val, crossed := false, st := r.st }
  | .izy b =>
    let r := zeroPagePointer b s
    indexed r.val r.st.cpu.y r.st

/-- The target of `JMP (ind)` (rule R97): the pointer's second byte wraps inside the pointer's page. -/
def indirectTarget (n : Word) (s : State) : Read16 :=
  readPair n (mkWord (hiByte n) (loByte n + 1)) s

/-! ## Access classes -/

/-- The operand of a read instruction (rule R107): the immediate byte, or one read of `ea`. -/
inductive Source where
  | imm (b : Byte)
  | mem (m : MemMode)
  deriving DecidableEq, Repr

/-- An operand, whether its address computation crossed a page, and the machine after the accesses. -/
structure Operand where
  val : Byte
  crossed : Bool
  st : State

/-- Rule R107: `m <- b1`, or `m <- MemRead(ea, 1)` after the mode's pointer reads. -/
def readOperand (src : Source) (s : State) : Operand :=
  match src with
  | .imm b => { val := b, crossed := false, st := s }
  | .mem m =>
    let r := resolve m s
    let v := busRead r.ea r.st
    { val := v.val, crossed := r.crossed, st := v.st }

/-- `base_cost + (1 if page_penalty and crossed)` (rule R105). -/
def costOf (base : Nat) (penalty crossed : Bool) : Nat := base + b2n (penalty && crossed)

/-- A read instruction: `f` takes the operand and works on the CPU. -/
def readInstr (base : Nat) (penalty : Bool) (src : Source) (f : Byte → Cpu → Cpu) (s : State) : Out :=
  let o := readOperand src s
  .next (charge (costOf base penalty o.crossed) (mapCpu (f o.val) o.st))

/-- A write instruction: one write of `ea`, no read of it. `v` is the stored byte. -/
def writeInstr (base : Nat) (m : MemMode) (v : Byte) (s : State) : Out :=
  let r := resolve m s
  .next (charge base (busWrite r.ea v r.st))

/-- A read-modify-write instruction (44_incdec_shift rule R180): read `m` at `ea`, write `n = f m cpu` there, then
`g m n` works on the CPU. No page-cross cycle. -/
def modifyInstr (base : Nat) (m : MemMode) (f : Byte → Cpu → Byte) (g : Byte → Byte → Cpu → Cpu) (s : State) : Out :=
  let r := resolve m s
  let o := busRead r.ea r.st
  let n := f o.val o.st.cpu
  .next (charge base (mapCpu (g o.val n) (busWrite r.ea n o.st)))

/-- An instruction without memory access that works on the CPU: implied and accumulator modes (rules R91, R92). -/
def cpuInstr (base : Nat) (f : Cpu → Cpu) (s : State) : Out := .next (charge base (mapCpu f s))

/-- `Branch(cond)` (45_control rule R193); `PC` is already the address of the next instruction. -/
def branch (cond : Bool) (d : Byte) (s : State) : Out :=
  let target := s.cpu.pc + d.signExtend 16
  if cond then
    .next (charge (3 + b2n (pageCrossed s.cpu.pc target)) (mapCpu (setPc target) s))
  else .next (charge 2 s)

end Sys2Proof.Machine
end

