-- ==== Sys2Proof/Machine/Control.lean ====
section
/-! DEFINITION. Jumps, subroutine call and return, conditional branches (45_control). Each constructor of `Instr` has a definition of its own;
the operation of a rule is said once, over its operand. -/

namespace Sys2Proof.Machine

/-! ### JMP (rule R190) -/

/-- 0x4C, absolute (R100). -/
def execJmpAbs (n : Word) (s : State) : Out :=
  .next (charge 3 (mapCpu (setPc n) s))

/-- 0x6C, indirect (R97). -/
def execJmpInd (n : Word) (s : State) : Out :=
  .next (charge 5 (mapCpu (setPc (indirectTarget n s).val) (indirectTarget n s).st))

/-! ### JSR (rule R191) -/

/-- 0x20, absolute (R100). -/
def execJsrAbs (n : Word) (s : State) : Out :=
  .next (charge 6 (mapCpu (setPc n) (pushWord (s.cpu.pc - 1) s)))

/-! ### RTS (rule R192) -/

/-- 0x60, implied. -/
def execRtsImp (s : State) : Out :=
  .next (charge 6 (mapCpu (setPc ((pullWord s).val + 1)) (pullWord s).st))

/-! ### BCC (rule R194) -/

/-- 0x90, relative (R103). -/
def execBccRel (d : Byte) (s : State) : Out :=
  branch (!s.cpu.p.c) d s

/-! ### BCS (rule R195) -/

/-- 0xB0, relative (R103). -/
def execBcsRel (d : Byte) (s : State) : Out :=
  branch (s.cpu.p.c) d s

/-! ### BEQ (rule R196) -/

/-- 0xF0, relative (R103). -/
def execBeqRel (d : Byte) (s : State) : Out :=
  branch (s.cpu.p.z) d s

/-! ### BNE (rule R197) -/

/-- 0xD0, relative (R103). -/
def execBneRel (d : Byte) (s : State) : Out :=
  branch (!s.cpu.p.z) d s

/-! ### BMI (rule R198) -/

/-- 0x30, relative (R103). -/
def execBmiRel (d : Byte) (s : State) : Out :=
  branch (s.cpu.p.n) d s

/-! ### BPL (rule R199) -/

/-- 0x10, relative (R103). -/
def execBplRel (d : Byte) (s : State) : Out :=
  branch (!s.cpu.p.n) d s

/-! ### BVC (rule R200) -/

/-- 0x50, relative (R103). -/
def execBvcRel (d : Byte) (s : State) : Out :=
  branch (!s.cpu.p.v) d s

/-! ### BVS (rule R201) -/

/-- 0x70, relative (R103). -/
def execBvsRel (d : Byte) (s : State) : Out :=
  branch (s.cpu.p.v) d s

end Sys2Proof.Machine
end

