-- ==== Sys2Proof/Machine/Halting.lean ====
section
/-! DEFINITION. Opcodes that raise HALT (47_undocumented rules R245 to R251). Each constructor of `Instr` has a definition of its own;
the operation of a rule is said once, over its operand. -/

namespace Sys2Proof.Machine

/-! ### JAM (rule R245) -/

/-- 0x02, implied. -/
def execJamImp02 (s : State) : Out :=
  haltIllegal 0x02 s

/-- 0x12, implied. -/
def execJamImp12 (s : State) : Out :=
  haltIllegal 0x12 s

/-- 0x22, implied. -/
def execJamImp22 (s : State) : Out :=
  haltIllegal 0x22 s

/-- 0x32, implied. -/
def execJamImp32 (s : State) : Out :=
  haltIllegal 0x32 s

/-- 0x42, implied. -/
def execJamImp42 (s : State) : Out :=
  haltIllegal 0x42 s

/-- 0x52, implied. -/
def execJamImp52 (s : State) : Out :=
  haltIllegal 0x52 s

/-- 0x62, implied. -/
def execJamImp62 (s : State) : Out :=
  haltIllegal 0x62 s

/-- 0x72, implied. -/
def execJamImp72 (s : State) : Out :=
  haltIllegal 0x72 s

/-- 0x92, implied. -/
def execJamImp92 (s : State) : Out :=
  haltIllegal 0x92 s

/-- 0xB2, implied. -/
def execJamImpB2 (s : State) : Out :=
  haltIllegal 0xB2 s

/-- 0xD2, implied. -/
def execJamImpD2 (s : State) : Out :=
  haltIllegal 0xD2 s

/-- 0xF2, implied. -/
def execJamImpF2 (s : State) : Out :=
  haltIllegal 0xF2 s

/-! ### XAA (rule R246) -/

/-- 0x8B, immediate (R93). -/
def execXaaImm (_b : Byte) (s : State) : Out :=
  haltIllegal 0x8B s

/-! ### LXA (rule R247) -/

/-- 0xAB, immediate (R93). -/
def execLxaImm (_b : Byte) (s : State) : Out :=
  haltIllegal 0xAB s

/-! ### SHA (rule R248) -/

/-- 0x93, (zero page),Y (R99). -/
def execShaIzy (_b : Byte) (s : State) : Out :=
  haltIllegal 0x93 s

/-- 0x9F, absolute,Y (R102). -/
def execShaAby (_n : Word) (s : State) : Out :=
  haltIllegal 0x9F s

/-! ### SHY (rule R249) -/

/-- 0x9C, absolute,X (R101). -/
def execShyAbx (_n : Word) (s : State) : Out :=
  haltIllegal 0x9C s

/-! ### SHX (rule R250) -/

/-- 0x9E, absolute,Y (R102). -/
def execShxAby (_n : Word) (s : State) : Out :=
  haltIllegal 0x9E s

/-! ### TAS (rule R251) -/

/-- 0x9B, absolute,Y (R102). -/
def execTasAby (_n : Word) (s : State) : Out :=
  haltIllegal 0x9B s

end Sys2Proof.Machine
end

