-- ==== Sys2Proof/Machine/IncDecShift.lean ====
section
/-! DEFINITION. Increment, decrement, shift and rotate (44_incdec_shift). Each constructor of `Instr` has a definition of its own;
the operation of a rule is said once, over its operand. -/

namespace Sys2Proof.Machine

/-! ### INC (rule R170) -/

/-- The operation of rule R170 on a memory operand. -/
def incAt (base : Nat) (mode : MemMode) (s : State) : Out :=
  modifyInstr base mode (fun m _ => m + 1) (fun _ n c => setNZ n c) s

/-- 0xE6, zero page (R94). -/
def execIncZp (b : Byte) (s : State) : Out :=
  incAt 5 (.zp b) s

/-- 0xEE, absolute (R100). -/
def execIncAbs (n : Word) (s : State) : Out :=
  incAt 6 (.abs n) s

/-- 0xF6, zero page,X (R95). -/
def execIncZpx (b : Byte) (s : State) : Out :=
  incAt 6 (.zpx b) s

/-- 0xFE, absolute,X (R101). -/
def execIncAbx (n : Word) (s : State) : Out :=
  incAt 7 (.abx n) s

/-! ### DEC (rule R171) -/

/-- The operation of rule R171 on a memory operand. -/
def decAt (base : Nat) (mode : MemMode) (s : State) : Out :=
  modifyInstr base mode (fun m _ => m - 1) (fun _ n c => setNZ n c) s

/-- 0xC6, zero page (R94). -/
def execDecZp (b : Byte) (s : State) : Out :=
  decAt 5 (.zp b) s

/-- 0xCE, absolute (R100). -/
def execDecAbs (n : Word) (s : State) : Out :=
  decAt 6 (.abs n) s

/-- 0xD6, zero page,X (R95). -/
def execDecZpx (b : Byte) (s : State) : Out :=
  decAt 6 (.zpx b) s

/-- 0xDE, absolute,X (R101). -/
def execDecAbx (n : Word) (s : State) : Out :=
  decAt 7 (.abx n) s

/-! ### INX (rule R172) -/

/-- 0xE8, implied. -/
def execInxImp (s : State) : Out :=
  cpuInstr 2 (fun c => loadX (c.x + 1) c) s

/-! ### INY (rule R173) -/

/-- 0xC8, implied. -/
def execInyImp (s : State) : Out :=
  cpuInstr 2 (fun c => loadY (c.y + 1) c) s

/-! ### DEX (rule R174) -/

/-- 0xCA, implied. -/
def execDexImp (s : State) : Out :=
  cpuInstr 2 (fun c => loadX (c.x - 1) c) s

/-! ### DEY (rule R175) -/

/-- 0x88, implied. -/
def execDeyImp (s : State) : Out :=
  cpuInstr 2 (fun c => loadY (c.y - 1) c) s

/-! ### ASL (rule R176) -/

/-- The operation of rule R176 on a memory operand. -/
def aslAt (base : Nat) (mode : MemMode) (s : State) : Out :=
  modifyInstr base mode (fun m _ => shiftLeft m) (fun m n c => setNZ n (setC (bit7 m) c)) s

/-- The operation of rule R176 on the accumulator. -/
def aslAcc (base : Nat) (s : State) : Out :=
  cpuInstr base (fun c => loadA (shiftLeft c.a) (setC (bit7 c.a) c)) s

/-- 0x06, zero page (R94). -/
def execAslZp (b : Byte) (s : State) : Out :=
  aslAt 5 (.zp b) s

/-- 0x0A, accumulator. -/
def execAslAcc (s : State) : Out :=
  aslAcc 2 s

/-- 0x0E, absolute (R100). -/
def execAslAbs (n : Word) (s : State) : Out :=
  aslAt 6 (.abs n) s

/-- 0x16, zero page,X (R95). -/
def execAslZpx (b : Byte) (s : State) : Out :=
  aslAt 6 (.zpx b) s

/-- 0x1E, absolute,X (R101). -/
def execAslAbx (n : Word) (s : State) : Out :=
  aslAt 7 (.abx n) s

/-! ### LSR (rule R177) -/

/-- The operation of rule R177 on a memory operand. -/
def lsrAt (base : Nat) (mode : MemMode) (s : State) : Out :=
  modifyInstr base mode (fun m _ => shiftRight m) (fun m n c => setNZ n (setC (m.getLsbD 0) c)) s

/-- The operation of rule R177 on the accumulator. -/
def lsrAcc (base : Nat) (s : State) : Out :=
  cpuInstr base (fun c => loadA (shiftRight c.a) (setC (c.a.getLsbD 0) c)) s

/-- 0x46, zero page (R94). -/
def execLsrZp (b : Byte) (s : State) : Out :=
  lsrAt 5 (.zp b) s

/-- 0x4A, accumulator. -/
def execLsrAcc (s : State) : Out :=
  lsrAcc 2 s

/-- 0x4E, absolute (R100). -/
def execLsrAbs (n : Word) (s : State) : Out :=
  lsrAt 6 (.abs n) s

/-- 0x56, zero page,X (R95). -/
def execLsrZpx (b : Byte) (s : State) : Out :=
  lsrAt 6 (.zpx b) s

/-- 0x5E, absolute,X (R101). -/
def execLsrAbx (n : Word) (s : State) : Out :=
  lsrAt 7 (.abx n) s

/-! ### ROL (rule R178) -/

/-- The operation of rule R178 on a memory operand. -/
def rolAt (base : Nat) (mode : MemMode) (s : State) : Out :=
  modifyInstr base mode (fun m c => rotateLeft m c.p.c) (fun m n c => setNZ n (setC (bit7 m) c)) s

/-- The operation of rule R178 on the accumulator. -/
def rolAcc (base : Nat) (s : State) : Out :=
  cpuInstr base (fun c => loadA (rotateLeft c.a c.p.c) (setC (bit7 c.a) c)) s

/-- 0x26, zero page (R94). -/
def execRolZp (b : Byte) (s : State) : Out :=
  rolAt 5 (.zp b) s

/-- 0x2A, accumulator. -/
def execRolAcc (s : State) : Out :=
  rolAcc 2 s

/-- 0x2E, absolute (R100). -/
def execRolAbs (n : Word) (s : State) : Out :=
  rolAt 6 (.abs n) s

/-- 0x36, zero page,X (R95). -/
def execRolZpx (b : Byte) (s : State) : Out :=
  rolAt 6 (.zpx b) s

/-- 0x3E, absolute,X (R101). -/
def execRolAbx (n : Word) (s : State) : Out :=
  rolAt 7 (.abx n) s

/-! ### ROR (rule R179) -/

/-- The operation of rule R179 on a memory operand. -/
def rorAt (base : Nat) (mode : MemMode) (s : State) : Out :=
  modifyInstr base mode (fun m c => rotateRight m c.p.c) (fun m n c => setNZ n (setC (m.getLsbD 0) c)) s

/-- The operation of rule R179 on the accumulator. -/
def rorAcc (base : Nat) (s : State) : Out :=
  cpuInstr base (fun c => loadA (rotateRight c.a c.p.c) (setC (c.a.getLsbD 0) c)) s

/-- 0x66, zero page (R94). -/
def execRorZp (b : Byte) (s : State) : Out :=
  rorAt 5 (.zp b) s

/-- 0x6A, accumulator. -/
def execRorAcc (s : State) : Out :=
  rorAcc 2 s

/-- 0x6E, absolute (R100). -/
def execRorAbs (n : Word) (s : State) : Out :=
  rorAt 6 (.abs n) s

/-- 0x76, zero page,X (R95). -/
def execRorZpx (b : Byte) (s : State) : Out :=
  rorAt 6 (.zpx b) s

/-- 0x7E, absolute,X (R101). -/
def execRorAbx (n : Word) (s : State) : Out :=
  rorAt 7 (.abx n) s

end Sys2Proof.Machine
end

