-- ==== Sys2Proof/Machine/LoadStore.lean ====
section
/-! DEFINITION. Loads and stores (41_load_store_transfer rules R120 to R125). Each constructor of `Instr` has a definition of its own;
the operation of a rule is said once, over its operand. -/

namespace Sys2Proof.Machine

/-! ### LDA (rule R120) -/

/-- The operation of rule R120 on its operand. -/
def ldaFrom (base : Nat) (penalty : Bool) (src : Source) (s : State) : Out :=
  readInstr base penalty src (fun m c => loadA m c) s

/-- 0xA1, (zero page,X) (R98). -/
def execLdaIzx (b : Byte) (s : State) : Out :=
  ldaFrom 6 false (.mem (.izx b)) s

/-- 0xA5, zero page (R94). -/
def execLdaZp (b : Byte) (s : State) : Out :=
  ldaFrom 3 false (.mem (.zp b)) s

/-- 0xA9, immediate (R93). -/
def execLdaImm (b : Byte) (s : State) : Out :=
  ldaFrom 2 false (.imm b) s

/-- 0xAD, absolute (R100). -/
def execLdaAbs (n : Word) (s : State) : Out :=
  ldaFrom 4 false (.mem (.abs n)) s

/-- 0xB1, (zero page),Y (R99). -/
def execLdaIzy (b : Byte) (s : State) : Out :=
  ldaFrom 5 true (.mem (.izy b)) s

/-- 0xB5, zero page,X (R95). -/
def execLdaZpx (b : Byte) (s : State) : Out :=
  ldaFrom 4 false (.mem (.zpx b)) s

/-- 0xB9, absolute,Y (R102). -/
def execLdaAby (n : Word) (s : State) : Out :=
  ldaFrom 4 true (.mem (.aby n)) s

/-- 0xBD, absolute,X (R101). -/
def execLdaAbx (n : Word) (s : State) : Out :=
  ldaFrom 4 true (.mem (.abx n)) s

/-! ### LDX (rule R121) -/

/-- The operation of rule R121 on its operand. -/
def ldxFrom (base : Nat) (penalty : Bool) (src : Source) (s : State) : Out :=
  readInstr base penalty src (fun m c => loadX m c) s

/-- 0xA2, immediate (R93). -/
def execLdxImm (b : Byte) (s : State) : Out :=
  ldxFrom 2 false (.imm b) s

/-- 0xA6, zero page (R94). -/
def execLdxZp (b : Byte) (s : State) : Out :=
  ldxFrom 3 false (.mem (.zp b)) s

/-- 0xAE, absolute (R100). -/
def execLdxAbs (n : Word) (s : State) : Out :=
  ldxFrom 4 false (.mem (.abs n)) s

/-- 0xB6, zero page,Y (R96). -/
def execLdxZpy (b : Byte) (s : State) : Out :=
  ldxFrom 4 false (.mem (.zpy b)) s

/-- 0xBE, absolute,Y (R102). -/
def execLdxAby (n : Word) (s : State) : Out :=
  ldxFrom 4 true (.mem (.aby n)) s

/-! ### LDY (rule R122) -/

/-- The operation of rule R122 on its operand. -/
def ldyFrom (base : Nat) (penalty : Bool) (src : Source) (s : State) : Out :=
  readInstr base penalty src (fun m c => loadY m c) s

/-- 0xA0, immediate (R93). -/
def execLdyImm (b : Byte) (s : State) : Out :=
  ldyFrom 2 false (.imm b) s

/-- 0xA4, zero page (R94). -/
def execLdyZp (b : Byte) (s : State) : Out :=
  ldyFrom 3 false (.mem (.zp b)) s

/-- 0xAC, absolute (R100). -/
def execLdyAbs (n : Word) (s : State) : Out :=
  ldyFrom 4 false (.mem (.abs n)) s

/-- 0xB4, zero page,X (R95). -/
def execLdyZpx (b : Byte) (s : State) : Out :=
  ldyFrom 4 false (.mem (.zpx b)) s

/-- 0xBC, absolute,X (R101). -/
def execLdyAbx (n : Word) (s : State) : Out :=
  ldyFrom 4 true (.mem (.abx n)) s

/-! ### STA (rule R123) -/

/-- 0x81, (zero page,X) (R98). -/
def execStaIzx (b : Byte) (s : State) : Out :=
  writeInstr 6 (.izx b) s.cpu.a s

/-- 0x85, zero page (R94). -/
def execStaZp (b : Byte) (s : State) : Out :=
  writeInstr 3 (.zp b) s.cpu.a s

/-- 0x8D, absolute (R100). -/
def execStaAbs (n : Word) (s : State) : Out :=
  writeInstr 4 (.abs n) s.cpu.a s

/-- 0x91, (zero page),Y (R99). -/
def execStaIzy (b : Byte) (s : State) : Out :=
  writeInstr 6 (.izy b) s.cpu.a s

/-- 0x95, zero page,X (R95). -/
def execStaZpx (b : Byte) (s : State) : Out :=
  writeInstr 4 (.zpx b) s.cpu.a s

/-- 0x99, absolute,Y (R102). -/
def execStaAby (n : Word) (s : State) : Out :=
  writeInstr 5 (.aby n) s.cpu.a s

/-- 0x9D, absolute,X (R101). -/
def execStaAbx (n : Word) (s : State) : Out :=
  writeInstr 5 (.abx n) s.cpu.a s

/-! ### STX (rule R124) -/

/-- 0x86, zero page (R94). -/
def execStxZp (b : Byte) (s : State) : Out :=
  writeInstr 3 (.zp b) s.cpu.x s

/-- 0x8E, absolute (R100). -/
def execStxAbs (n : Word) (s : State) : Out :=
  writeInstr 4 (.abs n) s.cpu.x s

/-- 0x96, zero page,Y (R96). -/
def execStxZpy (b : Byte) (s : State) : Out :=
  writeInstr 4 (.zpy b) s.cpu.x s

/-! ### STY (rule R125) -/

/-- 0x84, zero page (R94). -/
def execStyZp (b : Byte) (s : State) : Out :=
  writeInstr 3 (.zp b) s.cpu.y s

/-- 0x8C, absolute (R100). -/
def execStyAbs (n : Word) (s : State) : Out :=
  writeInstr 4 (.abs n) s.cpu.y s

/-- 0x94, zero page,X (R95). -/
def execStyZpx (b : Byte) (s : State) : Out :=
  writeInstr 4 (.zpx b) s.cpu.y s

end Sys2Proof.Machine
end

