-- ==== Sys2Proof/Machine/LogicArith.lean ====
section
/-! DEFINITION. Logic, bit test, compare, add and subtract (43_logic_arith). Each constructor of `Instr` has a definition of its own;
the operation of a rule is said once, over its operand. -/

namespace Sys2Proof.Machine

/-! ### AND (rule R150) -/

/-- The operation of rule R150 on its operand. -/
def andFrom (base : Nat) (penalty : Bool) (src : Source) (s : State) : Out :=
  readInstr base penalty src (fun m c => loadA (c.a &&& m) c) s

/-- 0x21, (zero page,X) (R98). -/
def execAndIzx (b : Byte) (s : State) : Out :=
  andFrom 6 false (.mem (.izx b)) s

/-- 0x25, zero page (R94). -/
def execAndZp (b : Byte) (s : State) : Out :=
  andFrom 3 false (.mem (.zp b)) s

/-- 0x29, immediate (R93). -/
def execAndImm (b : Byte) (s : State) : Out :=
  andFrom 2 false (.imm b) s

/-- 0x2D, absolute (R100). -/
def execAndAbs (n : Word) (s : State) : Out :=
  andFrom 4 false (.mem (.abs n)) s

/-- 0x31, (zero page),Y (R99). -/
def execAndIzy (b : Byte) (s : State) : Out :=
  andFrom 5 true (.mem (.izy b)) s

/-- 0x35, zero page,X (R95). -/
def execAndZpx (b : Byte) (s : State) : Out :=
  andFrom 4 false (.mem (.zpx b)) s

/-- 0x39, absolute,Y (R102). -/
def execAndAby (n : Word) (s : State) : Out :=
  andFrom 4 true (.mem (.aby n)) s

/-- 0x3D, absolute,X (R101). -/
def execAndAbx (n : Word) (s : State) : Out :=
  andFrom 4 true (.mem (.abx n)) s

/-! ### ORA (rule R151) -/

/-- The operation of rule R151 on its operand. -/
def oraFrom (base : Nat) (penalty : Bool) (src : Source) (s : State) : Out :=
  readInstr base penalty src (fun m c => loadA (c.a ||| m) c) s

/-- 0x01, (zero page,X) (R98). -/
def execOraIzx (b : Byte) (s : State) : Out :=
  oraFrom 6 false (.mem (.izx b)) s

/-- 0x05, zero page (R94). -/
def execOraZp (b : Byte) (s : State) : Out :=
  oraFrom 3 false (.mem (.zp b)) s

/-- 0x09, immediate (R93). -/
def execOraImm (b : Byte) (s : State) : Out :=
  oraFrom 2 false (.imm b) s

/-- 0x0D, absolute (R100). -/
def execOraAbs (n : Word) (s : State) : Out :=
  oraFrom 4 false (.mem (.abs n)) s

/-- 0x11, (zero page),Y (R99). -/
def execOraIzy (b : Byte) (s : State) : Out :=
  oraFrom 5 true (.mem (.izy b)) s

/-- 0x15, zero page,X (R95). -/
def execOraZpx (b : Byte) (s : State) : Out :=
  oraFrom 4 false (.mem (.zpx b)) s

/-- 0x19, absolute,Y (R102). -/
def execOraAby (n : Word) (s : State) : Out :=
  oraFrom 4 true (.mem (.aby n)) s

/-- 0x1D, absolute,X (R101). -/
def execOraAbx (n : Word) (s : State) : Out :=
  oraFrom 4 true (.mem (.abx n)) s

/-! ### EOR (rule R152) -/

/-- The operation of rule R152 on its operand. -/
def eorFrom (base : Nat) (penalty : Bool) (src : Source) (s : State) : Out :=
  readInstr base penalty src (fun m c => loadA (c.a ^^^ m) c) s

/-- 0x41, (zero page,X) (R98). -/
def execEorIzx (b : Byte) (s : State) : Out :=
  eorFrom 6 false (.mem (.izx b)) s

/-- 0x45, zero page (R94). -/
def execEorZp (b : Byte) (s : State) : Out :=
  eorFrom 3 false (.mem (.zp b)) s

/-- 0x49, immediate (R93). -/
def execEorImm (b : Byte) (s : State) : Out :=
  eorFrom 2 false (.imm b) s

/-- 0x4D, absolute (R100). -/
def execEorAbs (n : Word) (s : State) : Out :=
  eorFrom 4 false (.mem (.abs n)) s

/-- 0x51, (zero page),Y (R99). -/
def execEorIzy (b : Byte) (s : State) : Out :=
  eorFrom 5 true (.mem (.izy b)) s

/-- 0x55, zero page,X (R95). -/
def execEorZpx (b : Byte) (s : State) : Out :=
  eorFrom 4 false (.mem (.zpx b)) s

/-- 0x59, absolute,Y (R102). -/
def execEorAby (n : Word) (s : State) : Out :=
  eorFrom 4 true (.mem (.aby n)) s

/-- 0x5D, absolute,X (R101). -/
def execEorAbx (n : Word) (s : State) : Out :=
  eorFrom 4 true (.mem (.abx n)) s

/-! ### BIT (rule R153) -/

/-- The operation of rule R153 on its operand. -/
def bitFrom (base : Nat) (penalty : Bool) (src : Source) (s : State) : Out :=
  readInstr base penalty src (fun m c => bitTest m c) s

/-- 0x24, zero page (R94). -/
def execBitZp (b : Byte) (s : State) : Out :=
  bitFrom 3 false (.mem (.zp b)) s

/-- 0x2C, absolute (R100). -/
def execBitAbs (n : Word) (s : State) : Out :=
  bitFrom 4 false (.mem (.abs n)) s

/-! ### CMP (rule R154) -/

/-- The operation of rule R154 on its operand. -/
def cmpFrom (base : Nat) (penalty : Bool) (src : Source) (s : State) : Out :=
  readInstr base penalty src (fun m c => compareCore c.a m c) s

/-- 0xC1, (zero page,X) (R98). -/
def execCmpIzx (b : Byte) (s : State) : Out :=
  cmpFrom 6 false (.mem (.izx b)) s

/-- 0xC5, zero page (R94). -/
def execCmpZp (b : Byte) (s : State) : Out :=
  cmpFrom 3 false (.mem (.zp b)) s

/-- 0xC9, immediate (R93). -/
def execCmpImm (b : Byte) (s : State) : Out :=
  cmpFrom 2 false (.imm b) s

/-- 0xCD, absolute (R100). -/
def execCmpAbs (n : Word) (s : State) : Out :=
  cmpFrom 4 false (.mem (.abs n)) s

/-- 0xD1, (zero page),Y (R99). -/
def execCmpIzy (b : Byte) (s : State) : Out :=
  cmpFrom 5 true (.mem (.izy b)) s

/-- 0xD5, zero page,X (R95). -/
def execCmpZpx (b : Byte) (s : State) : Out :=
  cmpFrom 4 false (.mem (.zpx b)) s

/-- 0xD9, absolute,Y (R102). -/
def execCmpAby (n : Word) (s : State) : Out :=
  cmpFrom 4 true (.mem (.aby n)) s

/-- 0xDD, absolute,X (R101). -/
def execCmpAbx (n : Word) (s : State) : Out :=
  cmpFrom 4 true (.mem (.abx n)) s

/-! ### CPX (rule R155) -/

/-- The operation of rule R155 on its operand. -/
def cpxFrom (base : Nat) (penalty : Bool) (src : Source) (s : State) : Out :=
  readInstr base penalty src (fun m c => compareCore c.x m c) s

/-- 0xE0, immediate (R93). -/
def execCpxImm (b : Byte) (s : State) : Out :=
  cpxFrom 2 false (.imm b) s

/-- 0xE4, zero page (R94). -/
def execCpxZp (b : Byte) (s : State) : Out :=
  cpxFrom 3 false (.mem (.zp b)) s

/-- 0xEC, absolute (R100). -/
def execCpxAbs (n : Word) (s : State) : Out :=
  cpxFrom 4 false (.mem (.abs n)) s

/-! ### CPY (rule R156) -/

/-- The operation of rule R156 on its operand. -/
def cpyFrom (base : Nat) (penalty : Bool) (src : Source) (s : State) : Out :=
  readInstr base penalty src (fun m c => compareCore c.y m c) s

/-- 0xC0, immediate (R93). -/
def execCpyImm (b : Byte) (s : State) : Out :=
  cpyFrom 2 false (.imm b) s

/-- 0xC4, zero page (R94). -/
def execCpyZp (b : Byte) (s : State) : Out :=
  cpyFrom 3 false (.mem (.zp b)) s

/-- 0xCC, absolute (R100). -/
def execCpyAbs (n : Word) (s : State) : Out :=
  cpyFrom 4 false (.mem (.abs n)) s

/-! ### ADC (rule R157) -/

/-- The operation of rule R157 on its operand. -/
def adcFrom (base : Nat) (penalty : Bool) (src : Source) (s : State) : Out :=
  readInstr base penalty src (fun m c => addCore s.params.decimalEnabled m c) s

/-- 0x61, (zero page,X) (R98). -/
def execAdcIzx (b : Byte) (s : State) : Out :=
  adcFrom 6 false (.mem (.izx b)) s

/-- 0x65, zero page (R94). -/
def execAdcZp (b : Byte) (s : State) : Out :=
  adcFrom 3 false (.mem (.zp b)) s

/-- 0x69, immediate (R93). -/
def execAdcImm (b : Byte) (s : State) : Out :=
  adcFrom 2 false (.imm b) s

/-- 0x6D, absolute (R100). -/
def execAdcAbs (n : Word) (s : State) : Out :=
  adcFrom 4 false (.mem (.abs n)) s

/-- 0x71, (zero page),Y (R99). -/
def execAdcIzy (b : Byte) (s : State) : Out :=
  adcFrom 5 true (.mem (.izy b)) s

/-- 0x75, zero page,X (R95). -/
def execAdcZpx (b : Byte) (s : State) : Out :=
  adcFrom 4 false (.mem (.zpx b)) s

/-- 0x79, absolute,Y (R102). -/
def execAdcAby (n : Word) (s : State) : Out :=
  adcFrom 4 true (.mem (.aby n)) s

/-- 0x7D, absolute,X (R101). -/
def execAdcAbx (n : Word) (s : State) : Out :=
  adcFrom 4 true (.mem (.abx n)) s

/-! ### SBC (rule R159) -/

/-- The operation of rule R159 on its operand. -/
def sbcFrom (base : Nat) (penalty : Bool) (src : Source) (s : State) : Out :=
  readInstr base penalty src (fun m c => subCore s.params.decimalEnabled m c) s

/-- 0xE1, (zero page,X) (R98). -/
def execSbcIzx (b : Byte) (s : State) : Out :=
  sbcFrom 6 false (.mem (.izx b)) s

/-- 0xE5, zero page (R94). -/
def execSbcZp (b : Byte) (s : State) : Out :=
  sbcFrom 3 false (.mem (.zp b)) s

/-- 0xE9, immediate (R93). -/
def execSbcImm (b : Byte) (s : State) : Out :=
  sbcFrom 2 false (.imm b) s

/-- 0xED, absolute (R100). -/
def execSbcAbs (n : Word) (s : State) : Out :=
  sbcFrom 4 false (.mem (.abs n)) s

/-- 0xF1, (zero page),Y (R99). -/
def execSbcIzy (b : Byte) (s : State) : Out :=
  sbcFrom 5 true (.mem (.izy b)) s

/-- 0xF5, zero page,X (R95). -/
def execSbcZpx (b : Byte) (s : State) : Out :=
  sbcFrom 4 false (.mem (.zpx b)) s

/-- 0xF9, absolute,Y (R102). -/
def execSbcAby (n : Word) (s : State) : Out :=
  sbcFrom 4 true (.mem (.aby n)) s

/-- 0xFD, absolute,X (R101). -/
def execSbcAbx (n : Word) (s : State) : Out :=
  sbcFrom 4 true (.mem (.abx n)) s

end Sys2Proof.Machine
end

