-- ==== Sys2Proof/Machine/Stack.lean ====
section
/-! DEFINITION. Stack instructions (42_stack). Each constructor of `Instr` has a definition of its own;
the operation of a rule is said once, over its operand. -/

namespace Sys2Proof.Machine

/-! ### PHA (rule R140) -/

/-- 0x48, implied. -/
def execPhaImp (s : State) : Out :=
  .next (charge 3 (push s.cpu.a s))

/-! ### PHP (rule R141) -/

/-- 0x08, implied. -/
def execPhpImp (s : State) : Out :=
  .next (charge 3 (push (pack s.cpu.p true) s))

/-! ### PLA (rule R142) -/

/-- 0x68, implied. -/
def execPlaImp (s : State) : Out :=
  .next (charge 4 (mapCpu (loadA (pull s).val) (pull s).st))

/-! ### PLP (rule R143) -/

/-- 0x28, implied. -/
def execPlpImp (s : State) : Out :=
  .next (charge 4 (mapCpu (fun c => { c with p := unpack (pull s).val c.p }) (pull s).st))

end Sys2Proof.Machine
end

