-- ==== Sys2Proof/Machine/SystemFlags.lean ====
section
/-! DEFINITION. Flag, no-operation, break and return-from-interrupt instructions (46_system_flags). Each constructor of `Instr` has a definition of its own;
the operation of a rule is said once, over its operand. -/

namespace Sys2Proof.Machine

/-! ### CLC (rule R210) -/

/-- 0x18, implied. -/
def execClcImp (s : State) : Out :=
  cpuInstr 2 (fun c => setC false c) s

/-! ### SEC (rule R211) -/

/-- 0x38, implied. -/
def execSecImp (s : State) : Out :=
  cpuInstr 2 (fun c => setC true c) s

/-! ### CLI (rule R212) -/

/-- 0x58, implied. -/
def execCliImp (s : State) : Out :=
  cpuInstr 2 (fun c => setI false c) s

/-! ### SEI (rule R213) -/

/-- 0x78, implied. -/
def execSeiImp (s : State) : Out :=
  cpuInstr 2 (fun c => setI true c) s

/-! ### CLD (rule R214) -/

/-- 0xD8, implied. -/
def execCldImp (s : State) : Out :=
  cpuInstr 2 (fun c => setD false c) s

/-! ### SED (rule R215) -/

/-- 0xF8, implied. -/
def execSedImp (s : State) : Out :=
  cpuInstr 2 (fun c => setD true c) s

/-! ### CLV (rule R216) -/

/-- 0xB8, implied. -/
def execClvImp (s : State) : Out :=
  cpuInstr 2 (fun c => setV false c) s

/-! ### NOP (rule R217) -/

/-- 0xEA, implied. -/
def execNopImp (s : State) : Out :=
  cpuInstr 2 (fun c => c) s

/-! ### BRK (rule R218) -/

/-- BRK as the software interrupt, under `BRK_MODE = interrupt` (rule R219): the byte after the opcode is skipped and
not read, and the status is pushed with bit 4 set. -/
def brkInterrupt (s : State) : Out :=
  .next (charge 7 (interruptEntry vecIrq true (mapCpu (setPc (s.cpu.pc + 1)) s)))

/-- BRK: HALT(Break) under the normative `BRK_MODE = halt` (rule R218), else rule R219. -/
def brk (s : State) : Out :=
  match s.params.brkMode with
  | .halt => haltBreak s
  | .interrupt => brkInterrupt s

/-- 0x00, implied. -/
def execBrkImp (s : State) : Out :=
  brk s

/-! ### RTI (rule R220) -/

/-- 0x40, implied. -/
def execRtiImp (s : State) : Out :=
  .next (charge 6 (returnFromInterrupt s))

end Sys2Proof.Machine
end

