-- ==== Sys2Proof/Machine/Transfer.lean ====
section
/-! DEFINITION. Register transfers (41_load_store_transfer rules R126 to R131). Each constructor of `Instr` has a definition of its own;
the operation of a rule is said once, over its operand. -/

namespace Sys2Proof.Machine

/-! ### TAX (rule R126) -/

/-- 0xAA, implied. -/
def execTaxImp (s : State) : Out :=
  cpuInstr 2 (fun c => loadX c.a c) s

/-! ### TAY (rule R127) -/

/-- 0xA8, implied. -/
def execTayImp (s : State) : Out :=
  cpuInstr 2 (fun c => loadY c.a c) s

/-! ### TXA (rule R128) -/

/-- 0x8A, implied. -/
def execTxaImp (s : State) : Out :=
  cpuInstr 2 (fun c => loadA c.x c) s

/-! ### TYA (rule R129) -/

/-- 0x98, implied. -/
def execTyaImp (s : State) : Out :=
  cpuInstr 2 (fun c => loadA c.y c) s

/-! ### TSX (rule R130) -/

/-- 0xBA, implied. -/
def execTsxImp (s : State) : Out :=
  cpuInstr 2 (fun c => loadX c.s c) s

/-! ### TXS (rule R131) -/

/-- 0x9A, implied. -/
def execTxsImp (s : State) : Out :=
  cpuInstr 2 (fun c => setS c.x c) s

end Sys2Proof.Machine
end

