-- ==== Sys2Proof/Machine/Undocumented.lean ====
section
/-! DEFINITION. Undocumented instructions that execute (47_undocumented rules R230 to R244). Each constructor of `Instr` has a definition of its own;
the operation of a rule is said once, over its operand. -/

namespace Sys2Proof.Machine

/-! ### NOP (rule R230) -/

/-- 0x04, zero page (R94). -/
def execNopZp04 (b : Byte) (s : State) : Out :=
  readInstr 3 false (.mem (.zp b)) (fun _ c => c) s

/-- 0x0C, absolute (R100). -/
def execNopAbs (n : Word) (s : State) : Out :=
  readInstr 4 false (.mem (.abs n)) (fun _ c => c) s

/-- 0x14, zero page,X (R95). -/
def execNopZpx14 (b : Byte) (s : State) : Out :=
  readInstr 4 false (.mem (.zpx b)) (fun _ c => c) s

/-- 0x1A, implied. -/
def execNopImp1A (s : State) : Out :=
  cpuInstr 2 (fun c => c) s

/-- 0x1C, absolute,X (R101). -/
def execNopAbx1C (n : Word) (s : State) : Out :=
  readInstr 4 true (.mem (.abx n)) (fun _ c => c) s

/-- 0x34, zero page,X (R95). -/
def execNopZpx34 (b : Byte) (s : State) : Out :=
  readInstr 4 false (.mem (.zpx b)) (fun _ c => c) s

/-- 0x3A, implied. -/
def execNopImp3A (s : State) : Out :=
  cpuInstr 2 (fun c => c) s

/-- 0x3C, absolute,X (R101). -/
def execNopAbx3C (n : Word) (s : State) : Out :=
  readInstr 4 true (.mem (.abx n)) (fun _ c => c) s

/-- 0x44, zero page (R94). -/
def execNopZp44 (b : Byte) (s : State) : Out :=
  readInstr 3 false (.mem (.zp b)) (fun _ c => c) s

/-- 0x54, zero page,X (R95). -/
def execNopZpx54 (b : Byte) (s : State) : Out :=
  readInstr 4 false (.mem (.zpx b)) (fun _ c => c) s

/-- 0x5A, implied. -/
def execNopImp5A (s : State) : Out :=
  cpuInstr 2 (fun c => c) s

/-- 0x5C, absolute,X (R101). -/
def execNopAbx5C (n : Word) (s : State) : Out :=
  readInstr 4 true (.mem (.abx n)) (fun _ c => c) s

/-- 0x64, zero page (R94). -/
def execNopZp64 (b : Byte) (s : State) : Out :=
  readInstr 3 false (.mem (.zp b)) (fun _ c => c) s

/-- 0x74, zero page,X (R95). -/
def execNopZpx74 (b : Byte) (s : State) : Out :=
  readInstr 4 false (.mem (.zpx b)) (fun _ c => c) s

/-- 0x7A, implied. -/
def execNopImp7A (s : State) : Out :=
  cpuInstr 2 (fun c => c) s

/-- 0x7C, absolute,X (R101). -/
def execNopAbx7C (n : Word) (s : State) : Out :=
  readInstr 4 true (.mem (.abx n)) (fun _ c => c) s

/-- 0x80, immediate (R93). -/
def execNopImm80 (b : Byte) (s : State) : Out :=
  readInstr 2 false (.imm b) (fun _ c => c) s

/-- 0x82, immediate (R93). -/
def execNopImm82 (b : Byte) (s : State) : Out :=
  readInstr 2 false (.imm b) (fun _ c => c) s

/-- 0x89, immediate (R93). -/
def execNopImm89 (b : Byte) (s : State) : Out :=
  readInstr 2 false (.imm b) (fun _ c => c) s

/-- 0xC2, immediate (R93). -/
def execNopImmC2 (b : Byte) (s : State) : Out :=
  readInstr 2 false (.imm b) (fun _ c => c) s

/-- 0xD4, zero page,X (R95). -/
def execNopZpxD4 (b : Byte) (s : State) : Out :=
  readInstr 4 false (.mem (.zpx b)) (fun _ c => c) s

/-- 0xDA, implied. -/
def execNopImpDA (s : State) : Out :=
  cpuInstr 2 (fun c => c) s

/-- 0xDC, absolute,X (R101). -/
def execNopAbxDC (n : Word) (s : State) : Out :=
  readInstr 4 true (.mem (.abx n)) (fun _ c => c) s

/-- 0xE2, immediate (R93). -/
def execNopImmE2 (b : Byte) (s : State) : Out :=
  readInstr 2 false (.imm b) (fun _ c => c) s

/-- 0xF4, zero page,X (R95). -/
def execNopZpxF4 (b : Byte) (s : State) : Out :=
  readInstr 4 false (.mem (.zpx b)) (fun _ c => c) s

/-- 0xFA, implied. -/
def execNopImpFA (s : State) : Out :=
  cpuInstr 2 (fun c => c) s

/-- 0xFC, absolute,X (R101). -/
def execNopAbxFC (n : Word) (s : State) : Out :=
  readInstr 4 true (.mem (.abx n)) (fun _ c => c) s

/-! ### LAX (rule R231) -/

/-- The operation of rule R231 on its operand. -/
def laxFrom (base : Nat) (penalty : Bool) (src : Source) (s : State) : Out :=
  readInstr base penalty src (fun m c => setX m (loadA m c)) s

/-- 0xA3, (zero page,X) (R98). -/
def execLaxIzx (b : Byte) (s : State) : Out :=
  laxFrom 6 false (.mem (.izx b)) s

/-- 0xA7, zero page (R94). -/
def execLaxZp (b : Byte) (s : State) : Out :=
  laxFrom 3 false (.mem (.zp b)) s

/-- 0xAF, absolute (R100). -/
def execLaxAbs (n : Word) (s : State) : Out :=
  laxFrom 4 false (.mem (.abs n)) s

/-- 0xB3, (zero page),Y (R99). -/
def execLaxIzy (b : Byte) (s : State) : Out :=
  laxFrom 5 true (.mem (.izy b)) s

/-- 0xB7, zero page,Y (R96). -/
def execLaxZpy (b : Byte) (s : State) : Out :=
  laxFrom 4 false (.mem (.zpy b)) s

/-- 0xBF, absolute,Y (R102). -/
def execLaxAby (n : Word) (s : State) : Out :=
  laxFrom 4 true (.mem (.aby n)) s

/-! ### SAX (rule R232) -/

/-- 0x83, (zero page,X) (R98). -/
def execSaxIzx (b : Byte) (s : State) : Out :=
  writeInstr 6 (.izx b) (s.cpu.a &&& s.cpu.x) s

/-- 0x87, zero page (R94). -/
def execSaxZp (b : Byte) (s : State) : Out :=
  writeInstr 3 (.zp b) (s.cpu.a &&& s.cpu.x) s

/-- 0x8F, absolute (R100). -/
def execSaxAbs (n : Word) (s : State) : Out :=
  writeInstr 4 (.abs n) (s.cpu.a &&& s.cpu.x) s

/-- 0x97, zero page,Y (R96). -/
def execSaxZpy (b : Byte) (s : State) : Out :=
  writeInstr 4 (.zpy b) (s.cpu.a &&& s.cpu.x) s

/-! ### DCP (rule R233) -/

/-- The operation of rule R233 on a memory operand. -/
def dcpAt (base : Nat) (mode : MemMode) (s : State) : Out :=
  modifyInstr base mode (fun m _ => m - 1) (fun _ n c => compareCore c.a n c) s

/-- 0xC3, (zero page,X) (R98). -/
def execDcpIzx (b : Byte) (s : State) : Out :=
  dcpAt 8 (.izx b) s

/-- 0xC7, zero page (R94). -/
def execDcpZp (b : Byte) (s : State) : Out :=
  dcpAt 5 (.zp b) s

/-- 0xCF, absolute (R100). -/
def execDcpAbs (n : Word) (s : State) : Out :=
  dcpAt 6 (.abs n) s

/-- 0xD3, (zero page),Y (R99). -/
def execDcpIzy (b : Byte) (s : State) : Out :=
  dcpAt 8 (.izy b) s

/-- 0xD7, zero page,X (R95). -/
def execDcpZpx (b : Byte) (s : State) : Out :=
  dcpAt 6 (.zpx b) s

/-- 0xDB, absolute,Y (R102). -/
def execDcpAby (n : Word) (s : State) : Out :=
  dcpAt 7 (.aby n) s

/-- 0xDF, absolute,X (R101). -/
def execDcpAbx (n : Word) (s : State) : Out :=
  dcpAt 7 (.abx n) s

/-! ### ISC (rule R234) -/

/-- The operation of rule R234 on a memory operand. -/
def iscAt (base : Nat) (mode : MemMode) (s : State) : Out :=
  modifyInstr base mode (fun m _ => m + 1) (fun _ n c => subCore s.params.decimalEnabled n c) s

/-- 0xE3, (zero page,X) (R98). -/
def execIscIzx (b : Byte) (s : State) : Out :=
  iscAt 8 (.izx b) s

/-- 0xE7, zero page (R94). -/
def execIscZp (b : Byte) (s : State) : Out :=
  iscAt 5 (.zp b) s

/-- 0xEF, absolute (R100). -/
def execIscAbs (n : Word) (s : State) : Out :=
  iscAt 6 (.abs n) s

/-- 0xF3, (zero page),Y (R99). -/
def execIscIzy (b : Byte) (s : State) : Out :=
  iscAt 8 (.izy b) s

/-- 0xF7, zero page,X (R95). -/
def execIscZpx (b : Byte) (s : State) : Out :=
  iscAt 6 (.zpx b) s

/-- 0xFB, absolute,Y (R102). -/
def execIscAby (n : Word) (s : State) : Out :=
  iscAt 7 (.aby n) s

/-- 0xFF, absolute,X (R101). -/
def execIscAbx (n : Word) (s : State) : Out :=
  iscAt 7 (.abx n) s

/-! ### SLO (rule R235) -/

/-- The operation of rule R235 on a memory operand. -/
def sloAt (base : Nat) (mode : MemMode) (s : State) : Out :=
  modifyInstr base mode (fun m _ => shiftLeft m) (fun m n c => loadA (c.a ||| n) (setC (bit7 m) c)) s

/-- 0x03, (zero page,X) (R98). -/
def execSloIzx (b : Byte) (s : State) : Out :=
  sloAt 8 (.izx b) s

/-- 0x07, zero page (R94). -/
def execSloZp (b : Byte) (s : State) : Out :=
  sloAt 5 (.zp b) s

/-- 0x0F, absolute (R100). -/
def execSloAbs (n : Word) (s : State) : Out :=
  sloAt 6 (.abs n) s

/-- 0x13, (zero page),Y (R99). -/
def execSloIzy (b : Byte) (s : State) : Out :=
  sloAt 8 (.izy b) s

/-- 0x17, zero page,X (R95). -/
def execSloZpx (b : Byte) (s : State) : Out :=
  sloAt 6 (.zpx b) s

/-- 0x1B, absolute,Y (R102). -/
def execSloAby (n : Word) (s : State) : Out :=
  sloAt 7 (.aby n) s

/-- 0x1F, absolute,X (R101). -/
def execSloAbx (n : Word) (s : State) : Out :=
  sloAt 7 (.abx n) s

/-! ### RLA (rule R236) -/

/-- The operation of rule R236 on a memory operand. -/
def rlaAt (base : Nat) (mode : MemMode) (s : State) : Out :=
  modifyInstr base mode (fun m c => rotateLeft m c.p.c) (fun m n c => loadA (c.a &&& n) (setC (bit7 m) c)) s

/-- 0x23, (zero page,X) (R98). -/
def execRlaIzx (b : Byte) (s : State) : Out :=
  rlaAt 8 (.izx b) s

/-- 0x27, zero page (R94). -/
def execRlaZp (b : Byte) (s : State) : Out :=
  rlaAt 5 (.zp b) s

/-- 0x2F, absolute (R100). -/
def execRlaAbs (n : Word) (s : State) : Out :=
  rlaAt 6 (.abs n) s

/-- 0x33, (zero page),Y (R99). -/
def execRlaIzy (b : Byte) (s : State) : Out :=
  rlaAt 8 (.izy b) s

/-- 0x37, zero page,X (R95). -/
def execRlaZpx (b : Byte) (s : State) : Out :=
  rlaAt 6 (.zpx b) s

/-- 0x3B, absolute,Y (R102). -/
def execRlaAby (n : Word) (s : State) : Out :=
  rlaAt 7 (.aby n) s

/-- 0x3F, absolute,X (R101). -/
def execRlaAbx (n : Word) (s : State) : Out :=
  rlaAt 7 (.abx n) s

/-! ### SRE (rule R237) -/

/-- The operation of rule R237 on a memory operand. -/
def sreAt (base : Nat) (mode : MemMode) (s : State) : Out :=
  modifyInstr base mode (fun m _ => shiftRight m) (fun m n c => loadA (c.a ^^^ n) (setC (m.getLsbD 0) c)) s

/-- 0x43, (zero page,X) (R98). -/
def execSreIzx (b : Byte) (s : State) : Out :=
  sreAt 8 (.izx b) s

/-- 0x47, zero page (R94). -/
def execSreZp (b : Byte) (s : State) : Out :=
  sreAt 5 (.zp b) s

/-- 0x4F, absolute (R100). -/
def execSreAbs (n : Word) (s : State) : Out :=
  sreAt 6 (.abs n) s

/-- 0x53, (zero page),Y (R99). -/
def execSreIzy (b : Byte) (s : State) : Out :=
  sreAt 8 (.izy b) s

/-- 0x57, zero page,X (R95). -/
def execSreZpx (b : Byte) (s : State) : Out :=
  sreAt 6 (.zpx b) s

/-- 0x5B, absolute,Y (R102). -/
def execSreAby (n : Word) (s : State) : Out :=
  sreAt 7 (.aby n) s

/-- 0x5F, absolute,X (R101). -/
def execSreAbx (n : Word) (s : State) : Out :=
  sreAt 7 (.abx n) s

/-! ### RRA (rule R238) -/

/-- The operation of rule R238 on a memory operand. -/
def rraAt (base : Nat) (mode : MemMode) (s : State) : Out :=
  modifyInstr base mode (fun m c => rotateRight m c.p.c) (fun m n c => addCore s.params.decimalEnabled n (setC (m.getLsbD 0) c)) s

/-- 0x63, (zero page,X) (R98). -/
def execRraIzx (b : Byte) (s : State) : Out :=
  rraAt 8 (.izx b) s

/-- 0x67, zero page (R94). -/
def execRraZp (b : Byte) (s : State) : Out :=
  rraAt 5 (.zp b) s

/-- 0x6F, absolute (R100). -/
def execRraAbs (n : Word) (s : State) : Out :=
  rraAt 6 (.abs n) s

/-- 0x73, (zero page),Y (R99). -/
def execRraIzy (b : Byte) (s : State) : Out :=
  rraAt 8 (.izy b) s

/-- 0x77, zero page,X (R95). -/
def execRraZpx (b : Byte) (s : State) : Out :=
  rraAt 6 (.zpx b) s

/-- 0x7B, absolute,Y (R102). -/
def execRraAby (n : Word) (s : State) : Out :=
  rraAt 7 (.aby n) s

/-- 0x7F, absolute,X (R101). -/
def execRraAbx (n : Word) (s : State) : Out :=
  rraAt 7 (.abx n) s

/-! ### ANC (rule R239) -/

/-- The operation of rule R239 on its operand. -/
def ancFrom (base : Nat) (penalty : Bool) (src : Source) (s : State) : Out :=
  readInstr base penalty src (fun m c => ancCore m c) s

/-- 0x0B, immediate (R93). -/
def execAncImm0B (b : Byte) (s : State) : Out :=
  ancFrom 2 false (.imm b) s

/-- 0x2B, immediate (R93). -/
def execAncImm2B (b : Byte) (s : State) : Out :=
  ancFrom 2 false (.imm b) s

/-! ### ALR (rule R240) -/

/-- The operation of rule R240 on its operand. -/
def alrFrom (base : Nat) (penalty : Bool) (src : Source) (s : State) : Out :=
  readInstr base penalty src (fun m c => alrCore m c) s

/-- 0x4B, immediate (R93). -/
def execAlrImm (b : Byte) (s : State) : Out :=
  alrFrom 2 false (.imm b) s

/-! ### ARR (rule R241) -/

/-- The operation of rule R241 on its operand. -/
def arrFrom (base : Nat) (penalty : Bool) (src : Source) (s : State) : Out :=
  readInstr base penalty src (fun m c => arrCore s.params.decimalEnabled m c) s

/-- 0x6B, immediate (R93). -/
def execArrImm (b : Byte) (s : State) : Out :=
  arrFrom 2 false (.imm b) s

/-! ### AXS (rule R242) -/

/-- The operation of rule R242 on its operand. -/
def axsFrom (base : Nat) (penalty : Bool) (src : Source) (s : State) : Out :=
  readInstr base penalty src (fun m c => axsCore m c) s

/-- 0xCB, immediate (R93). -/
def execAxsImm (b : Byte) (s : State) : Out :=
  axsFrom 2 false (.imm b) s

/-! ### SBC (rule R243) -/

/-- 0xEB, immediate (R93). -/
def execSbcImmEB (b : Byte) (s : State) : Out :=
  sbcFrom 2 false (.imm b) s

/-! ### LAS (rule R244) -/

/-- The operation of rule R244 on its operand. -/
def lasFrom (base : Nat) (penalty : Bool) (src : Source) (s : State) : Out :=
  readInstr base penalty src (fun m c => lasCore m c) s

/-- 0xBB, absolute,Y (R102). -/
def execLasAby (n : Word) (s : State) : Out :=
  lasFrom 4 true (.mem (.aby n)) s

end Sys2Proof.Machine
end

