-- ==== Sys2Proof/Machine/Dispatch.lean ====
section
/-! DEFINITION. One arm per constructor of `Instr`: the meaning it calls. -/

namespace Sys2Proof.Machine

/-- Runs an instruction that has been fetched: `PC` is already past the bytes fetched for it (30_encoding rules R72
and R73), which for an opcode of `HALT_OPCODES` is the opcode byte alone. -/
def exec (i : Instr) (s : State) : Host.Outcome State Fault Refusal :=
  match i with
  | .brkImp => Sys2Proof.Machine.execBrkImp s
  | .oraIzx b => Sys2Proof.Machine.execOraIzx b s
  | .jamImp02 => Sys2Proof.Machine.execJamImp02 s
  | .sloIzx b => Sys2Proof.Machine.execSloIzx b s
  | .nopZp04 b => Sys2Proof.Machine.execNopZp04 b s
  | .oraZp b => Sys2Proof.Machine.execOraZp b s
  | .aslZp b => Sys2Proof.Machine.execAslZp b s
  | .sloZp b => Sys2Proof.Machine.execSloZp b s
  | .phpImp => Sys2Proof.Machine.execPhpImp s
  | .oraImm b => Sys2Proof.Machine.execOraImm b s
  | .aslAcc => Sys2Proof.Machine.execAslAcc s
  | .ancImm0B b => Sys2Proof.Machine.execAncImm0B b s
  | .nopAbs n => Sys2Proof.Machine.execNopAbs n s
  | .oraAbs n => Sys2Proof.Machine.execOraAbs n s
  | .aslAbs n => Sys2Proof.Machine.execAslAbs n s
  | .sloAbs n => Sys2Proof.Machine.execSloAbs n s
  | .bplRel d => Sys2Proof.Machine.execBplRel d s
  | .oraIzy b => Sys2Proof.Machine.execOraIzy b s
  | .jamImp12 => Sys2Proof.Machine.execJamImp12 s
  | .sloIzy b => Sys2Proof.Machine.execSloIzy b s
  | .nopZpx14 b => Sys2Proof.Machine.execNopZpx14 b s
  | .oraZpx b => Sys2Proof.Machine.execOraZpx b s
  | .aslZpx b => Sys2Proof.Machine.execAslZpx b s
  | .sloZpx b => Sys2Proof.Machine.execSloZpx b s
  | .clcImp => Sys2Proof.Machine.execClcImp s
  | .oraAby n => Sys2Proof.Machine.execOraAby n s
  | .nopImp1A => Sys2Proof.Machine.execNopImp1A s
  | .sloAby n => Sys2Proof.Machine.execSloAby n s
  | .nopAbx1C n => Sys2Proof.Machine.execNopAbx1C n s
  | .oraAbx n => Sys2Proof.Machine.execOraAbx n s
  | .aslAbx n => Sys2Proof.Machine.execAslAbx n s
  | .sloAbx n => Sys2Proof.Machine.execSloAbx n s
  | .jsrAbs n => Sys2Proof.Machine.execJsrAbs n s
  | .andIzx b => Sys2Proof.Machine.execAndIzx b s
  | .jamImp22 => Sys2Proof.Machine.execJamImp22 s
  | .rlaIzx b => Sys2Proof.Machine.execRlaIzx b s
  | .bitZp b => Sys2Proof.Machine.execBitZp b s
  | .andZp b => Sys2Proof.Machine.execAndZp b s
  | .rolZp b => Sys2Proof.Machine.execRolZp b s
  | .rlaZp b => Sys2Proof.Machine.execRlaZp b s
  | .plpImp => Sys2Proof.Machine.execPlpImp s
  | .andImm b => Sys2Proof.Machine.execAndImm b s
  | .rolAcc => Sys2Proof.Machine.execRolAcc s
  | .ancImm2B b => Sys2Proof.Machine.execAncImm2B b s
  | .bitAbs n => Sys2Proof.Machine.execBitAbs n s
  | .andAbs n => Sys2Proof.Machine.execAndAbs n s
  | .rolAbs n => Sys2Proof.Machine.execRolAbs n s
  | .rlaAbs n => Sys2Proof.Machine.execRlaAbs n s
  | .bmiRel d => Sys2Proof.Machine.execBmiRel d s
  | .andIzy b => Sys2Proof.Machine.execAndIzy b s
  | .jamImp32 => Sys2Proof.Machine.execJamImp32 s
  | .rlaIzy b => Sys2Proof.Machine.execRlaIzy b s
  | .nopZpx34 b => Sys2Proof.Machine.execNopZpx34 b s
  | .andZpx b => Sys2Proof.Machine.execAndZpx b s
  | .rolZpx b => Sys2Proof.Machine.execRolZpx b s
  | .rlaZpx b => Sys2Proof.Machine.execRlaZpx b s
  | .secImp => Sys2Proof.Machine.execSecImp s
  | .andAby n => Sys2Proof.Machine.execAndAby n s
  | .nopImp3A => Sys2Proof.Machine.execNopImp3A s
  | .rlaAby n => Sys2Proof.Machine.execRlaAby n s
  | .nopAbx3C n => Sys2Proof.Machine.execNopAbx3C n s
  | .andAbx n => Sys2Proof.Machine.execAndAbx n s
  | .rolAbx n => Sys2Proof.Machine.execRolAbx n s
  | .rlaAbx n => Sys2Proof.Machine.execRlaAbx n s
  | .rtiImp => Sys2Proof.Machine.execRtiImp s
  | .eorIzx b => Sys2Proof.Machine.execEorIzx b s
  | .jamImp42 => Sys2Proof.Machine.execJamImp42 s
  | .sreIzx b => Sys2Proof.Machine.execSreIzx b s
  | .nopZp44 b => Sys2Proof.Machine.execNopZp44 b s
  | .eorZp b => Sys2Proof.Machine.execEorZp b s
  | .lsrZp b => Sys2Proof.Machine.execLsrZp b s
  | .sreZp b => Sys2Proof.Machine.execSreZp b s
  | .phaImp => Sys2Proof.Machine.execPhaImp s
  | .eorImm b => Sys2Proof.Machine.execEorImm b s
  | .lsrAcc => Sys2Proof.Machine.execLsrAcc s
  | .alrImm b => Sys2Proof.Machine.execAlrImm b s
  | .jmpAbs n => Sys2Proof.Machine.execJmpAbs n s
  | .eorAbs n => Sys2Proof.Machine.execEorAbs n s
  | .lsrAbs n => Sys2Proof.Machine.execLsrAbs n s
  | .sreAbs n => Sys2Proof.Machine.execSreAbs n s
  | .bvcRel d => Sys2Proof.Machine.execBvcRel d s
  | .eorIzy b => Sys2Proof.Machine.execEorIzy b s
  | .jamImp52 => Sys2Proof.Machine.execJamImp52 s
  | .sreIzy b => Sys2Proof.Machine.execSreIzy b s
  | .nopZpx54 b => Sys2Proof.Machine.execNopZpx54 b s
  | .eorZpx b => Sys2Proof.Machine.execEorZpx b s
  | .lsrZpx b => Sys2Proof.Machine.execLsrZpx b s
  | .sreZpx b => Sys2Proof.Machine.execSreZpx b s
  | .cliImp => Sys2Proof.Machine.execCliImp s
  | .eorAby n => Sys2Proof.Machine.execEorAby n s
  | .nopImp5A => Sys2Proof.Machine.execNopImp5A s
  | .sreAby n => Sys2Proof.Machine.execSreAby n s
  | .nopAbx5C n => Sys2Proof.Machine.execNopAbx5C n s
  | .eorAbx n => Sys2Proof.Machine.execEorAbx n s
  | .lsrAbx n => Sys2Proof.Machine.execLsrAbx n s
  | .sreAbx n => Sys2Proof.Machine.execSreAbx n s
  | .rtsImp => Sys2Proof.Machine.execRtsImp s
  | .adcIzx b => Sys2Proof.Machine.execAdcIzx b s
  | .jamImp62 => Sys2Proof.Machine.execJamImp62 s
  | .rraIzx b => Sys2Proof.Machine.execRraIzx b s
  | .nopZp64 b => Sys2Proof.Machine.execNopZp64 b s
  | .adcZp b => Sys2Proof.Machine.execAdcZp b s
  | .rorZp b => Sys2Proof.Machine.execRorZp b s
  | .rraZp b => Sys2Proof.Machine.execRraZp b s
  | .plaImp => Sys2Proof.Machine.execPlaImp s
  | .adcImm b => Sys2Proof.Machine.execAdcImm b s
  | .rorAcc => Sys2Proof.Machine.execRorAcc s
  | .arrImm b => Sys2Proof.Machine.execArrImm b s
  | .jmpInd n => Sys2Proof.Machine.execJmpInd n s
  | .adcAbs n => Sys2Proof.Machine.execAdcAbs n s
  | .rorAbs n => Sys2Proof.Machine.execRorAbs n s
  | .rraAbs n => Sys2Proof.Machine.execRraAbs n s
  | .bvsRel d => Sys2Proof.Machine.execBvsRel d s
  | .adcIzy b => Sys2Proof.Machine.execAdcIzy b s
  | .jamImp72 => Sys2Proof.Machine.execJamImp72 s
  | .rraIzy b => Sys2Proof.Machine.execRraIzy b s
  | .nopZpx74 b => Sys2Proof.Machine.execNopZpx74 b s
  | .adcZpx b => Sys2Proof.Machine.execAdcZpx b s
  | .rorZpx b => Sys2Proof.Machine.execRorZpx b s
  | .rraZpx b => Sys2Proof.Machine.execRraZpx b s
  | .seiImp => Sys2Proof.Machine.execSeiImp s
  | .adcAby n => Sys2Proof.Machine.execAdcAby n s
  | .nopImp7A => Sys2Proof.Machine.execNopImp7A s
  | .rraAby n => Sys2Proof.Machine.execRraAby n s
  | .nopAbx7C n => Sys2Proof.Machine.execNopAbx7C n s
  | .adcAbx n => Sys2Proof.Machine.execAdcAbx n s
  | .rorAbx n => Sys2Proof.Machine.execRorAbx n s
  | .rraAbx n => Sys2Proof.Machine.execRraAbx n s
  | .nopImm80 b => Sys2Proof.Machine.execNopImm80 b s
  | .staIzx b => Sys2Proof.Machine.execStaIzx b s
  | .nopImm82 b => Sys2Proof.Machine.execNopImm82 b s
  | .saxIzx b => Sys2Proof.Machine.execSaxIzx b s
  | .styZp b => Sys2Proof.Machine.execStyZp b s
  | .staZp b => Sys2Proof.Machine.execStaZp b s
  | .stxZp b => Sys2Proof.Machine.execStxZp b s
  | .saxZp b => Sys2Proof.Machine.execSaxZp b s
  | .deyImp => Sys2Proof.Machine.execDeyImp s
  | .nopImm89 b => Sys2Proof.Machine.execNopImm89 b s
  | .txaImp => Sys2Proof.Machine.execTxaImp s
  | .xaaImm b => Sys2Proof.Machine.execXaaImm b s
  | .styAbs n => Sys2Proof.Machine.execStyAbs n s
  | .staAbs n => Sys2Proof.Machine.execStaAbs n s
  | .stxAbs n => Sys2Proof.Machine.execStxAbs n s
  | .saxAbs n => Sys2Proof.Machine.execSaxAbs n s
  | .bccRel d => Sys2Proof.Machine.execBccRel d s
  | .staIzy b => Sys2Proof.Machine.execStaIzy b s
  | .jamImp92 => Sys2Proof.Machine.execJamImp92 s
  | .shaIzy b => Sys2Proof.Machine.execShaIzy b s
  | .styZpx b => Sys2Proof.Machine.execStyZpx b s
  | .staZpx b => Sys2Proof.Machine.execStaZpx b s
  | .stxZpy b => Sys2Proof.Machine.execStxZpy b s
  | .saxZpy b => Sys2Proof.Machine.execSaxZpy b s
  | .tyaImp => Sys2Proof.Machine.execTyaImp s
  | .staAby n => Sys2Proof.Machine.execStaAby n s
  | .txsImp => Sys2Proof.Machine.execTxsImp s
  | .tasAby n => Sys2Proof.Machine.execTasAby n s
  | .shyAbx n => Sys2Proof.Machine.execShyAbx n s
  | .staAbx n => Sys2Proof.Machine.execStaAbx n s
  | .shxAby n => Sys2Proof.Machine.execShxAby n s
  | .shaAby n => Sys2Proof.Machine.execShaAby n s
  | .ldyImm b => Sys2Proof.Machine.execLdyImm b s
  | .ldaIzx b => Sys2Proof.Machine.execLdaIzx b s
  | .ldxImm b => Sys2Proof.Machine.execLdxImm b s
  | .laxIzx b => Sys2Proof.Machine.execLaxIzx b s
  | .ldyZp b => Sys2Proof.Machine.execLdyZp b s
  | .ldaZp b => Sys2Proof.Machine.execLdaZp b s
  | .ldxZp b => Sys2Proof.Machine.execLdxZp b s
  | .laxZp b => Sys2Proof.Machine.execLaxZp b s
  | .tayImp => Sys2Proof.Machine.execTayImp s
  | .ldaImm b => Sys2Proof.Machine.execLdaImm b s
  | .taxImp => Sys2Proof.Machine.execTaxImp s
  | .lxaImm b => Sys2Proof.Machine.execLxaImm b s
  | .ldyAbs n => Sys2Proof.Machine.execLdyAbs n s
  | .ldaAbs n => Sys2Proof.Machine.execLdaAbs n s
  | .ldxAbs n => Sys2Proof.Machine.execLdxAbs n s
  | .laxAbs n => Sys2Proof.Machine.execLaxAbs n s
  | .bcsRel d => Sys2Proof.Machine.execBcsRel d s
  | .ldaIzy b => Sys2Proof.Machine.execLdaIzy b s
  | .jamImpB2 => Sys2Proof.Machine.execJamImpB2 s
  | .laxIzy b => Sys2Proof.Machine.execLaxIzy b s
  | .ldyZpx b => Sys2Proof.Machine.execLdyZpx b s
  | .ldaZpx b => Sys2Proof.Machine.execLdaZpx b s
  | .ldxZpy b => Sys2Proof.Machine.execLdxZpy b s
  | .laxZpy b => Sys2Proof.Machine.execLaxZpy b s
  | .clvImp => Sys2Proof.Machine.execClvImp s
  | .ldaAby n => Sys2Proof.Machine.execLdaAby n s
  | .tsxImp => Sys2Proof.Machine.execTsxImp s
  | .lasAby n => Sys2Proof.Machine.execLasAby n s
  | .ldyAbx n => Sys2Proof.Machine.execLdyAbx n s
  | .ldaAbx n => Sys2Proof.Machine.execLdaAbx n s
  | .ldxAby n => Sys2Proof.Machine.execLdxAby n s
  | .laxAby n => Sys2Proof.Machine.execLaxAby n s
  | .cpyImm b => Sys2Proof.Machine.execCpyImm b s
  | .cmpIzx b => Sys2Proof.Machine.execCmpIzx b s
  | .nopImmC2 b => Sys2Proof.Machine.execNopImmC2 b s
  | .dcpIzx b => Sys2Proof.Machine.execDcpIzx b s
  | .cpyZp b => Sys2Proof.Machine.execCpyZp b s
  | .cmpZp b => Sys2Proof.Machine.execCmpZp b s
  | .decZp b => Sys2Proof.Machine.execDecZp b s
  | .dcpZp b => Sys2Proof.Machine.execDcpZp b s
  | .inyImp => Sys2Proof.Machine.execInyImp s
  | .cmpImm b => Sys2Proof.Machine.execCmpImm b s
  | .dexImp => Sys2Proof.Machine.execDexImp s
  | .axsImm b => Sys2Proof.Machine.execAxsImm b s
  | .cpyAbs n => Sys2Proof.Machine.execCpyAbs n s
  | .cmpAbs n => Sys2Proof.Machine.execCmpAbs n s
  | .decAbs n => Sys2Proof.Machine.execDecAbs n s
  | .dcpAbs n => Sys2Proof.Machine.execDcpAbs n s
  | .bneRel d => Sys2Proof.Machine.execBneRel d s
  | .cmpIzy b => Sys2Proof.Machine.execCmpIzy b s
  | .jamImpD2 => Sys2Proof.Machine.execJamImpD2 s
  | .dcpIzy b => Sys2Proof.Machine.execDcpIzy b s
  | .nopZpxD4 b => Sys2Proof.Machine.execNopZpxD4 b s
  | .cmpZpx b => Sys2Proof.Machine.execCmpZpx b s
  | .decZpx b => Sys2Proof.Machine.execDecZpx b s
  | .dcpZpx b => Sys2Proof.Machine.execDcpZpx b s
  | .cldImp => Sys2Proof.Machine.execCldImp s
  | .cmpAby n => Sys2Proof.Machine.execCmpAby n s
  | .nopImpDA => Sys2Proof.Machine.execNopImpDA s
  | .dcpAby n => Sys2Proof.Machine.execDcpAby n s
  | .nopAbxDC n => Sys2Proof.Machine.execNopAbxDC n s
  | .cmpAbx n => Sys2Proof.Machine.execCmpAbx n s
  | .decAbx n => Sys2Proof.Machine.execDecAbx n s
  | .dcpAbx n => Sys2Proof.Machine.execDcpAbx n s
  | .cpxImm b => Sys2Proof.Machine.execCpxImm b s
  | .sbcIzx b => Sys2Proof.Machine.execSbcIzx b s
  | .nopImmE2 b => Sys2Proof.Machine.execNopImmE2 b s
  | .iscIzx b => Sys2Proof.Machine.execIscIzx b s
  | .cpxZp b => Sys2Proof.Machine.execCpxZp b s
  | .sbcZp b => Sys2Proof.Machine.execSbcZp b s
  | .incZp b => Sys2Proof.Machine.execIncZp b s
  | .iscZp b => Sys2Proof.Machine.execIscZp b s
  | .inxImp => Sys2Proof.Machine.execInxImp s
  | .sbcImm b => Sys2Proof.Machine.execSbcImm b s
  | .nopImp => Sys2Proof.Machine.execNopImp s
  | .sbcImmEB b => Sys2Proof.Machine.execSbcImmEB b s
  | .cpxAbs n => Sys2Proof.Machine.execCpxAbs n s
  | .sbcAbs n => Sys2Proof.Machine.execSbcAbs n s
  | .incAbs n => Sys2Proof.Machine.execIncAbs n s
  | .iscAbs n => Sys2Proof.Machine.execIscAbs n s
  | .beqRel d => Sys2Proof.Machine.execBeqRel d s
  | .sbcIzy b => Sys2Proof.Machine.execSbcIzy b s
  | .jamImpF2 => Sys2Proof.Machine.execJamImpF2 s
  | .iscIzy b => Sys2Proof.Machine.execIscIzy b s
  | .nopZpxF4 b => Sys2Proof.Machine.execNopZpxF4 b s
  | .sbcZpx b => Sys2Proof.Machine.execSbcZpx b s
  | .incZpx b => Sys2Proof.Machine.execIncZpx b s
  | .iscZpx b => Sys2Proof.Machine.execIscZpx b s
  | .sedImp => Sys2Proof.Machine.execSedImp s
  | .sbcAby n => Sys2Proof.Machine.execSbcAby n s
  | .nopImpFA => Sys2Proof.Machine.execNopImpFA s
  | .iscAby n => Sys2Proof.Machine.execIscAby n s
  | .nopAbxFC n => Sys2Proof.Machine.execNopAbxFC n s
  | .sbcAbx n => Sys2Proof.Machine.execSbcAbx n s
  | .incAbx n => Sys2Proof.Machine.execIncAbx n s
  | .iscAbx n => Sys2Proof.Machine.execIscAbx n s

end Sys2Proof.Machine
end

