-- ==== Sys2Proof/Machine/Fetch.lean ====
section
/-! DEFINITION. Fetch and decode (30_encoding rules R72 lines 5 to 8, R73). -/

namespace Sys2Proof.Machine

/-- `MemRead(PC, 1)`, then `PC <- PC +_16 1` (rule R73). -/
def fetchByte (s : State) : Read :=
  let r := busRead s.cpu.pc s
  { val := r.val, st := mapCpu (fun c => setPc (c.pc + 1) c) r.st }

/-- An instruction and the machine after its fetch. -/
structure Fetched where
  instr : Instr
  st : State

/-- The operand bytes of a format, in ascending address order (rule R73). -/
def fetchOperand (f : Form) (s : State) : Fetched :=
  match f with
  | .f1 i => { instr := i, st := s }
  | .f2 mk =>
    let b1 := fetchByte s
    { instr := mk b1.val, st := b1.st }
  | .f3 mk =>
    let b1 := fetchByte s
    let b2 := fetchByte b1.st
    { instr := mk (mkWord b2.val b1.val), st := b2.st }

/-- Fetch and decode the instruction at `PC`. An opcode of `HALT_OPCODES` reads the opcode byte only (rule R73); the
operand its row has in the table is then taken as zero, and its meaning does not look at it (log 10). -/
def fetch (s : State) : Fetched :=
  let op := fetchByte s
  let f := decodeOpcode op.val
  if op.val ∈ haltOpcodes then { instr := f.build 0 0, st := op.st } else fetchOperand f op.st

end Sys2Proof.Machine
end

