-- ==== Sys2Proof/Machine/CpuStep.lean ====
section
/-! DEFINITION. The CPU's step (30_encoding rule R72) and the interrupt check (60_exceptions rules R440 to R448). -/

namespace Sys2Proof.Machine

/-- Lines 5 to 12 of rule R72: fetch, decode, execute. -/
def runInstruction (s : State) : Out :=
  let f := fetch s
  exec f.instr f.st

/-- `step(nmi_request, irq_line)` of rule R72. The cost it returns is what it adds to `cycles`. -/
def cpuStep (nmiRequest irqLine : Bool) (s : State) : Out :=
  if s.cpu.halted then .next s
  else if s.cpu.nmiPending || nmiRequest then .next (serviceNmi s)
  else if irqLine && !s.cpu.p.i then .next (serviceIrq s)
  else runInstruction s

end Sys2Proof.Machine
end

