-- ==== Sys2Proof/Machine/PpuDot.lean ====
section
/-! DEFINITION. The PPU's step: one dot (51_ppu rules R350 to R369). The cartridge is only read. -/

namespace Sys2Proof.Machine

/-! ## Fields of `v` and `t` (rule R339) -/

/-- `v[4:0]`. -/
def coarseX (v : BitVec 15) : BitVec 5 := v.extractLsb' 0 5

/-- `v[9:5]`. -/
def coarseY (v : BitVec 15) : BitVec 5 := v.extractLsb' 5 5

/-- `v[10]`. -/
def nametableX (v : BitVec 15) : BitVec 1 := v.extractLsb' 10 1

/-- `v[11]`. -/
def nametableY (v : BitVec 15) : BitVec 1 := v.extractLsb' 11 1

/-- `v[14:12]`. -/
def fineY (v : BitVec 15) : BitVec 3 := v.extractLsb' 12 3

/-- Increment coarse X (rule R359). -/
def incCoarseX (v : BitVec 15) : BitVec 15 :=
  if coarseX v = 31 then putField (putField v 0 (0#5)) 10 (~~~(nametableX v)) else putField v 0 (coarseX v + 1)

/-- Increment Y (rule R360). -/
def incY (v : BitVec 15) : BitVec 15 :=
  if fineY v < 7 then putField v 12 (fineY v + 1)
  else
    let v0 := putField v 12 (0#3)
    if coarseY v = 29 then putField (putField v0 5 (0#5)) 11 (~~~(nametableY v))
    else if coarseY v = 31 then putField v0 5 (0#5)
    else putField v0 5 (coarseY v + 1)

/-- Copy the horizontal bits of `t` to `v` (rule R361). -/
def copyHorizontal (t v : BitVec 15) : BitVec 15 := putField (putField v 0 (coarseX t)) 10 (nametableX t)

/-- Copy the vertical bits of `t` to `v` (rule R362). -/
def copyVertical (t v : BitVec 15) : BitVec 15 :=
  putField (putField (putField v 5 (coarseY t)) 11 (nametableY t)) 12 (fineY t)

/-! ## Background pipeline -/

/-- `rendering_enabled` (rule R342). -/
def renderingEnabled (p : Ppu) : Bool := p.mask.getLsbD 3 || p.mask.getLsbD 4

/-- `v` as an address of the PPU-private space. -/
def vAddress (v : BitVec 15) : Word := v.setWidth 16

/-- The shift of the four background registers (rule R355). -/
def shiftBackground (b : Background) : Background :=
  { b with patLo := b.patLo <<< 1, patHi := b.patHi <<< 1, attLo := b.attLo <<< 1, attHi := b.attHi <<< 1 }

/-- A tile's palette bit replicated over its eight pixels (rule R356). -/
def replicate8 (bit : Bool) : Byte := if bit then 0xFF else 0x00

/-- `load_shifters` (rule R356). -/
def loadShifters (b : Background) : Background :=
  { b with
    patLo := putField b.patLo 0 b.ptLoLatch
    patHi := putField b.patHi 0 b.ptHiLatch
    attLo := putField b.attLo 0 (replicate8 (b.atLatch.getLsbD 0))
    attHi := putField b.attHi 0 (replicate8 (b.atLatch.getLsbD 1)) }

/-- The nametable byte at `v` (rule R355). -/
def nametableByte (c : Cartridge) (p : Ppu) : Byte := ppuRead c p (0x2000 ||| (vAddress p.v &&& 0x0FFF))

/-- The address of the attribute byte at `v` (rule R357). -/
def attributeAddress (v : BitVec 15) : Word :=
  0x23C0 ||| (vAddress v &&& 0x0C00) ||| ((vAddress v >>> 4) &&& 0x38) ||| ((vAddress v >>> 2) &&& 0x07)

/-- The palette select of the tile at `v` (rule R357). -/
def attributeBits (c : Cartridge) (p : Ppu) : BitVec 2 :=
  let b := ppuRead c p (attributeAddress p.v)
  let shift := (if p.v.getLsbD 6 then 4 else 0) + (if p.v.getLsbD 1 then 2 else 0)
  (b >>> shift).extractLsb' 0 2

/-- `pattern_addr` (rule R358). -/
def patternAddress (p : Ppu) : Word :=
  ((BitVec.ofBool (p.ctrl.getLsbD 4)).setWidth 16 <<< 12) ||| (p.bg.ntLatch.setWidth 16 <<< 4) |||
  (fineY p.v).setWidth 16

/-- The fetch of the tile's dot `k = (c - 1) mod 8` (rule R355). -/
def tileFetch (c : Cartridge) (k : Nat) (p : Ppu) : Ppu :=
  if k = 0 then { p with bg := { loadShifters p.bg with ntLatch := nametableByte c p } }
  else if k = 2 then { p with bg := { p.bg with atLatch := attributeBits c p } }
  else if k = 4 then { p with bg := { p.bg with ptLoLatch := ppuRead c p (patternAddress p) } }
  else if k = 6 then { p with bg := { p.bg with ptHiLatch := ppuRead c p (patternAddress p + 8) } }
  else if k = 7 then { p with v := incCoarseX p.v }
  else p

/-- The dots of a line that shift and fetch (rule R355). -/
def fetchDot (c : Nat) : Bool := (2 ≤ c && c ≤ 257) || (321 ≤ c && c ≤ 337)

/-- The first line of the schedule of rule R355: shift, then fetch. -/
def shiftAndFetch (c : Cartridge) (p : Ppu) : Ppu :=
  if fetchDot p.cycle then tileFetch c ((p.cycle - 1) % 8) { p with bg := shiftBackground p.bg } else p

/-- The dot-256 line of rule R355. -/
def verticalStep (p : Ppu) : Ppu := if p.cycle = 256 then { p with v := incY p.v } else p

/-- The dot-257 line of rule R355. -/
def horizontalReload (p : Ppu) : Ppu :=
  if p.cycle = 257 then { p with bg := loadShifters p.bg, v := copyHorizontal p.t p.v } else p

/-- The dot-338 and dot-340 line of rule R355. -/
def extraNametableFetch (c : Cartridge) (p : Ppu) : Ppu :=
  if p.cycle = 338 ∨ p.cycle = 340 then { p with bg := { p.bg with ntLatch := nametableByte c p } } else p

/-- The pre-render line of rule R355. -/
def verticalReload (p : Ppu) : Ppu :=
  if p.scanline = 261 ∧ 280 ≤ p.cycle ∧ p.cycle ≤ 304 then { p with v := copyVertical p.t p.v } else p

/-- The background pipeline of one dot (rule R355), its lines in order. -/
def backgroundDot (c : Cartridge) (p : Ppu) : Ppu :=
  verticalReload (extraNametableFetch c (horizontalReload (verticalStep (shiftAndFetch c p))))

/-! ## Sprites -/

/-- Byte `k` of sprite `n` in `oam` (rule R338). -/
def oamByte (p : Ppu) (n k : Nat) : Byte := readCell p.oam (4 * n + k)

/-- `h`, the height of a sprite (rule R363). -/
def spriteHeight (p : Ppu) : Nat := if p.ctrl.getLsbD 5 then 16 else 8

/-- Whether sprite `n` covers the line after the current one (rule R363). -/
def spriteInRange (p : Ppu) (n : Nat) : Bool :=
  let y := (oamByte p n 0).toNat
  decide (y ≤ p.scanline ∧ p.scanline < y + spriteHeight p)

/-- The record of sprite `n` (rule R363). -/
def spriteRecord (p : Ppu) (n : Nat) : NextSprite :=
  { y := oamByte p n 0, tile := oamByte p n 1, attr := oamByte p n 2, x := oamByte p n 3, isZero := n == 0 }

/-- Sprite evaluation (rule R363): the first eight in `oam` order, and the overflow flag when more qualify. -/
def evaluateSprites (p : Ppu) : Ppu :=
  let found := (List.range 64).filter (spriteInRange p)
  { p with
    nextSprites := (found.take 8).map (spriteRecord p)
    spriteOverflow := p.spriteOverflow || decide (8 < found.length) }

/-- The row of a sprite's pattern, an exact integer (rule R364; 0 to `h - 1` in every ordinary case, log 9). -/
def spriteRow (p : Ppu) (r : NextSprite) : Int :=
  let row : Int := (p.scanline : Int) - r.y.toNat
  if r.attr.getLsbD 7 then ((spriteHeight p : Int) - 1) - row else row

/-- The address of a sprite's pattern byte, low plane (rule R364). -/
def spritePatternAddress (p : Ppu) (r : NextSprite) : Word :=
  let row := spriteRow p r
  if spriteHeight p = 8 then
    ((BitVec.ofBool (p.ctrl.getLsbD 3)).setWidth 16 <<< 12) ||| (r.tile.setWidth 16 <<< 4) ||| BitVec.ofInt 16 row
  else
    let tl : Word := (r.tile &&& 0xFE).setWidth 16 + (if 8 ≤ row then 1 else 0)
    ((r.tile &&& 1).setWidth 16 <<< 12) ||| (tl <<< 4) ||| (BitVec.ofInt 16 row &&& 7)

/-- The horizontal flip (rule R364). -/
def flipIf (flip : Bool) (v : Byte) : Byte := if flip then reverse8 v else v

/-- The fetched record of a selected sprite (rule R364). -/
def fetchSprite (c : Cartridge) (p : Ppu) (r : NextSprite) : LineSprite :=
  let a := spritePatternAddress p r
  let flip := r.attr.getLsbD 6
  { x := r.x, attr := r.attr, lo := flipIf flip (ppuRead c p a), hi := flipIf flip (ppuRead c p (a + 8))
    isZero := r.isZero }

/-- Sprite pattern fetch (rule R364). -/
def fetchSprites (c : Cartridge) (p : Ppu) : Ppu := { p with lineSprites := p.nextSprites.map (fetchSprite c p) }

/-! ## Pixel output -/

/-- A 2-bit value from its high and low bit. -/
def twoBits (hi lo : Bool) : BitVec 2 := BitVec.ofBool hi ++ BitVec.ofBool lo

/-- A pixel of one layer: its 2-bit value and its palette select (0 to 7). -/
structure Pixel where
  value : BitVec 2
  pal : BitVec 3
  deriving DecidableEq, Repr

/-- The background pixel of column `px` (rule R365). -/
def backgroundPixel (p : Ppu) (px : Nat) : Pixel :=
  if p.mask.getLsbD 3 && (p.mask.getLsbD 1 || decide (8 ≤ px)) then
    let bit := 15 - p.x.toNat
    { value := twoBits (p.bg.patHi.getLsbD bit) (p.bg.patLo.getLsbD bit)
      pal := (twoBits (p.bg.attHi.getLsbD bit) (p.bg.attLo.getLsbD bit)).setWidth 3 }
  else { value := 0, pal := 0 }

/-- A sprite pixel: the layer's pixel, whether it is in front, and whether it is sprite zero's (rule R366). -/
structure SpritePixel where
  pixel : Pixel
  front : Bool
  isZero : Bool
  deriving DecidableEq, Repr

/-- The pixel value of a sprite record at column `px`, zero where the sprite does not reach (rule R366). -/
def spriteValue (r : LineSprite) (px : Nat) : BitVec 2 :=
  if r.x.toNat ≤ px ∧ px - r.x.toNat ≤ 7 then
    let k := 7 - (px - r.x.toNat)
    twoBits (r.hi.getLsbD k) (r.lo.getLsbD k)
  else 0

/-- The first record with a non-zero pixel at column `px` (rule R366). -/
def firstSprite (px : Nat) : List LineSprite → Option SpritePixel
  | [] => none
  | r :: rest =>
    let v := spriteValue r px
    if v = 0 then firstSprite px rest
    else
      some { pixel := { value := v, pal := 4 + (r.attr.extractLsb' 0 2).setWidth 3 }
             front := !r.attr.getLsbD 5, isZero := r.isZero }

/-- The sprite pixel of column `px`, none where `fg_pixel` is 0 (rule R366). -/
def spritePixel (p : Ppu) (px : Nat) : Option SpritePixel :=
  if p.mask.getLsbD 4 && (p.mask.getLsbD 2 || decide (8 ≤ px)) then firstSprite px p.lineSprites else none

/-- The priority table (rule R367). -/
def compose (bg : Pixel) (fg : Option SpritePixel) : Pixel :=
  match fg with
  | none => if bg.value = 0 then { value := 0, pal := 0 } else bg
  | some f => if bg.value = 0 then f.pixel else if f.front then f.pixel else bg

/-- Sprite-zero hit (rule R367). -/
def hitsSprite0 (bg : Pixel) (fg : Option SpritePixel) (px : Nat) : Bool :=
  match fg with
  | none => false
  | some f => bg.value != 0 && f.isZero && px != 255

/-- The palette address of an output pixel (rule R368). -/
def pixelAddress (out : Pixel) : Word :=
  if out.value = 0 then 0x3F00
  else 0x3F00 ||| (out.pal.setWidth 16 <<< 2) ||| out.value.setWidth 16

/-- The index in `frame` of a pixel: row-major, 256 wide (rule R368). -/
def frameIndex (line px : Nat) : Nat := line * 256 + px

/-- Pixel output (rules R365 to R368) at dot `cycle`, pixel column `cycle - 1`. -/
def pixelDot (p : Ppu) : Ppu :=
  let px := p.cycle - 1
  let bg := backgroundPixel p px
  let fg := spritePixel p px
  let out := compose bg fg
  { p with
    sprite0Hit := p.sprite0Hit || hitsSprite0 bg fg px
    frame := writeCell p.frame (frameIndex p.scanline px) (paletteEntry p (pixelAddress out)) }

/-! ## One dot -/

/-- Line 1 of rule R350: the flag events of rule R352 and the NMI request of rule R353. -/
def flagEvents (p : Ppu) : Ppu :=
  if p.scanline = 241 ∧ p.cycle = 1 then
    { p with vblank := true, nmiRequest := p.nmiRequest || p.ctrl.getLsbD 7 }
  else if p.scanline = 0 ∧ p.cycle = 1 then { p with vblank := false }
  else if p.scanline = 261 ∧ p.cycle = 1 then { p with sprite0Hit := false, spriteOverflow := false }
  else p

/-- Line 2 of rule R350. -/
def backgroundEvent (c : Cartridge) (p : Ppu) : Ppu :=
  if renderingEnabled p ∧ (p.scanline ≤ 239 ∨ p.scanline = 261) then backgroundDot c p else p

/-- Line 3 of rule R350. -/
def evaluationEvent (p : Ppu) : Ppu :=
  if renderingEnabled p ∧ p.scanline ≤ 239 ∧ p.cycle = 257 then evaluateSprites p else p

/-- Line 4 of rule R350. -/
def spriteFetchEvent (c : Cartridge) (p : Ppu) : Ppu :=
  if renderingEnabled p ∧ p.scanline ≤ 239 ∧ p.cycle = 340 then fetchSprites c p else p

/-- Line 5 of rule R350: scanline 0 never shows sprites. -/
def clearSpritesEvent (p : Ppu) : Ppu :=
  if p.scanline = 261 ∧ p.cycle = 340 then { p with lineSprites := [] } else p

/-- Line 6 of rule R350. -/
def pixelEvent (p : Ppu) : Ppu :=
  if p.scanline ≤ 239 ∧ 1 ≤ p.cycle ∧ p.cycle ≤ 256 then pixelDot p else p

/-- Line 7 of rule R350: the counters, and frame-ready at the wrap (rule R369). -/
def advanceDot (p : Ppu) : Ppu :=
  if p.cycle + 1 = dotsPerLine then
    if p.scanline + 1 = linesPerFrame then { p with cycle := 0, scanline := 0, frameReady := true }
    else { p with cycle := 0, scanline := p.scanline + 1 }
  else { p with cycle := p.cycle + 1 }

/-- The events of the dot before the counters advance: lines 1 to 6 of rule R350, in order. -/
def dotEvents (c : Cartridge) (p : Ppu) : Ppu :=
  pixelEvent (clearSpritesEvent (spriteFetchEvent c (evaluationEvent (backgroundEvent c (flagEvents p)))))

/-- `ppu.step()`: exactly one dot (rule R350). -/
def ppuDot (c : Cartridge) (p : Ppu) : Ppu := advanceDot (dotEvents c p)

/-- `repeat n times: ppu.step()`. -/
def ppuDots (c : Cartridge) : Nat → Ppu → Ppu
  | 0, p => p
  | n + 1, p => ppuDots c n (ppuDot c p)

end Sys2Proof.Machine
end

