-- ==== Sys2Proof/Machine/Synchronizer.lean ====
section
/-! DEFINITION. The Synchronizer's loop (52_cartridge_sync rule R420). -/

namespace Sys2Proof.Machine

/-- `n <- ppu.nmi_request; ppu.nmi_request <- false`: the machine after the request was handed over. -/
def clearNmiRequest (s : State) : State := { s with ppu := { s.ppu with nmiRequest := false } }

/-- `repeat n times: ppu.step()`. -/
def runDots (n : Nat) (s : State) : State := { s with ppu := ppuDots s.cart n s.ppu }

/-- The last line of the loop: a ready frame is handed to the host as a snapshot (rules R369, R420, R421). -/
def deliverFrame (s : State) : State :=
  if s.ppu.frameReady then
    { s with
      ppu := { s.ppu with frameReady := false }
      frameOut := s.ppu.frame
      framesReturned := s.framesReturned + 1 }
  else s

/-- The loop after the CPU's step: a halted CPU leaves it at once, else `3 * cost` dots run and a ready frame is
delivered. `cycles0` is the cycle count before the CPU's step. -/
def afterCpu (cycles0 : Nat) (s : State) : State :=
  if s.cpu.halted then s else deliverFrame (runDots (ppuPerCpu * (s.cpu.cycles - cycles0)) s)

/-- One iteration of the loop of rule R420. A machine that has halted stays as it is (rules R424 and R442, log 5). -/
def syncStep (s : State) : Out :=
  if s.cpu.halted then .next s
  else
    match cpuStep s.ppu.nmiRequest s.irqLine (clearNmiRequest s) with
    | .next t => .next (afterCpu s.cpu.cycles t)
    | .fault r => .fault r
    | .refused r => .refused r

end Sys2Proof.Machine
end

