-- ==== Sys2Proof/Machine/Step.lean ====
section
/-! DEFINITION. One step of the machine, and an instruction placed at the next fetch. -/

namespace Sys2Proof.Machine

/-- One step of the machine: one iteration of the Synchronizer's loop (52_cartridge_sync rule R420). -/
def step (s : State) : Host.Outcome State Fault Refusal := syncStep s

/-- `s` with an instruction of the opcode table placed where the next step fetches it: byte `k` of the instruction is
`tableByte nbits w k`, and the bytes above `nbits` are zero. -/
def State.withFetchWord (s : State) (nbits w : Nat) : State :=
  placeInstruction (tableByte nbits w 0) (tableByte nbits w 1) (tableByte nbits w 2) s

end Sys2Proof.Machine
end

