-- ==== Sys2Proof/Machine/Cost.lean ====
section
/-! DEFINITION. The cost table (30_encoding rule R77, 40_addressing rules R105 and R106), as a table of its own beside
the costs the meanings carry: a claim holds one against the other. -/

namespace Sys2Proof.Machine

/-- A cell of the table of rule R77. -/
inductive CostCell where
  /-- a base cost without page-cross cycle -/
  | fix (base : Nat)
  /-- `+`: one more cycle when the address computation crosses a page -/
  | pen (base : Nat)
  /-- `2b`: a branch -/
  | br
  /-- `H`: raises HALT, cost 0 -/
  | halt
  deriving DecidableEq, Repr

/-- Row 0x of rule R77. -/
def costRow0 : List CostCell :=
  [.fix 7, .fix 6, .halt, .fix 8, .fix 3, .fix 3, .fix 5, .fix 5,
   .fix 3, .fix 2, .fix 2, .fix 2, .fix 4, .fix 4, .fix 6, .fix 6]

/-- Row 1x of rule R77. -/
def costRow1 : List CostCell :=
  [.br, .pen 5, .halt, .fix 8, .fix 4, .fix 4, .fix 6, .fix 6,
   .fix 2, .pen 4, .fix 2, .fix 7, .pen 4, .pen 4, .fix 7, .fix 7]

/-- Row 2x of rule R77. -/
def costRow2 : List CostCell :=
  [.fix 6, .fix 6, .halt, .fix 8, .fix 3, .fix 3, .fix 5, .fix 5,
   .fix 4, .fix 2, .fix 2, .fix 2, .fix 4, .fix 4, .fix 6, .fix 6]

/-- Row 3x of rule R77. -/
def costRow3 : List CostCell :=
  [.br, .pen 5, .halt, .fix 8, .fix 4, .fix 4, .fix 6, .fix 6,
   .fix 2, .pen 4, .fix 2, .fix 7, .pen 4, .pen 4, .fix 7, .fix 7]

/-- Row 4x of rule R77. -/
def costRow4 : List CostCell :=
  [.fix 6, .fix 6, .halt, .fix 8, .fix 3, .fix 3, .fix 5, .fix 5,
   .fix 3, .fix 2, .fix 2, .fix 2, .fix 3, .fix 4, .fix 6, .fix 6]

/-- Row 5x of rule R77. -/
def costRow5 : List CostCell :=
  [.br, .pen 5, .halt, .fix 8, .fix 4, .fix 4, .fix 6, .fix 6,
   .fix 2, .pen 4, .fix 2, .fix 7, .pen 4, .pen 4, .fix 7, .fix 7]

/-- Row 6x of rule R77. -/
def costRow6 : List CostCell :=
  [.fix 6, .fix 6, .halt, .fix 8, .fix 3, .fix 3, .fix 5, .fix 5,
   .fix 4, .fix 2, .fix 2, .fix 2, .fix 5, .fix 4, .fix 6, .fix 6]

/-- Row 7x of rule R77. -/
def costRow7 : List CostCell :=
  [.br, .pen 5, .halt, .fix 8, .fix 4, .fix 4, .fix 6, .fix 6,
   .fix 2, .pen 4, .fix 2, .fix 7, .pen 4, .pen 4, .fix 7, .fix 7]

/-- Row 8x of rule R77. -/
def costRow8 : List CostCell :=
  [.fix 2, .fix 6, .fix 2, .fix 6, .fix 3, .fix 3, .fix 3, .fix 3,
   .fix 2, .fix 2, .fix 2, .halt, .fix 4, .fix 4, .fix 4, .fix 4]

/-- Row 9x of rule R77. -/
def costRow9 : List CostCell :=
  [.br, .fix 6, .halt, .halt, .fix 4, .fix 4, .fix 4, .fix 4,
   .fix 2, .fix 5, .fix 2, .halt, .halt, .fix 5, .halt, .halt]

/-- Row Ax of rule R77. -/
def costRowA : List CostCell :=
  [.fix 2, .fix 6, .fix 2, .fix 6, .fix 3, .fix 3, .fix 3, .fix 3,
   .fix 2, .fix 2, .fix 2, .halt, .fix 4, .fix 4, .fix 4, .fix 4]

/-- Row Bx of rule R77. -/
def costRowB : List CostCell :=
  [.br, .pen 5, .halt, .pen 5, .fix 4, .fix 4, .fix 4, .fix 4,
   .fix 2, .pen 4, .fix 2, .pen 4, .pen 4, .pen 4, .pen 4, .pen 4]

/-- Row Cx of rule R77. -/
def costRowC : List CostCell :=
  [.fix 2, .fix 6, .fix 2, .fix 8, .fix 3, .fix 3, .fix 5, .fix 5,
   .fix 2, .fix 2, .fix 2, .fix 2, .fix 4, .fix 4, .fix 6, .fix 6]

/-- Row Dx of rule R77. -/
def costRowD : List CostCell :=
  [.br, .pen 5, .halt, .fix 8, .fix 4, .fix 4, .fix 6, .fix 6,
   .fix 2, .pen 4, .fix 2, .fix 7, .pen 4, .pen 4, .fix 7, .fix 7]

/-- Row Ex of rule R77. -/
def costRowE : List CostCell :=
  [.fix 2, .fix 6, .fix 2, .fix 8, .fix 3, .fix 3, .fix 5, .fix 5,
   .fix 2, .fix 2, .fix 2, .fix 2, .fix 4, .fix 4, .fix 6, .fix 6]

/-- Row Fx of rule R77. -/
def costRowF : List CostCell :=
  [.br, .pen 5, .halt, .fix 8, .fix 4, .fix 4, .fix 6, .fix 6,
   .fix 2, .pen 4, .fix 2, .fix 7, .pen 4, .pen 4, .fix 7, .fix 7]

/-- The table of rule R77: row = high nibble, column = low nibble. -/
def costMatrix : List (List CostCell) :=
  [costRow0, costRow1, costRow2, costRow3] ++ [costRow4, costRow5, costRow6, costRow7] ++
  [costRow8, costRow9, costRowA, costRowB] ++ [costRowC, costRowD, costRowE, costRowF]

/-- The cell of an opcode byte. -/
def costCell (op : Byte) : CostCell := (costMatrix.getD (op.toNat / 16) []).getD (op.toNat % 16) .halt

end Sys2Proof.Machine
end

