-- ==== Sys2Proof/Machine/Shape.lean ====
section
/-! DEFINITION. The shape of each instruction, as a table of its own beside the meanings: its operation (the mnemonic of
30_encoding rule R76) and its access class (40_addressing rule R107), by constructor. Claims about groups of
instructions are stated with it. -/

namespace Sys2Proof

/-- The 76 operations, by mnemonic. `nop` is the documented and the undocumented NOP, `sbc` includes 0xEB. -/
inductive Op where
  | brk | ora | jam | slo | nop | asl | php | anc | bpl | clc | jsr | and_
  | rla | bit | rol | plp | bmi | sec | rti | eor | sre | lsr | pha | alr
  | jmp | bvc | cli | rts | adc | rra | ror | pla | arr | bvs | sei | sta
  | sax | sty | stx | dey | txa | xaa | bcc | sha | tya | txs | tas | shy
  | shx | ldy | lda | ldx | lax | tay | tax | lxa | bcs | clv | tsx | las
  | cpy | cmp | dcp | dec | iny | dex | axs | bne | cld | cpx | sbc | isc
  | inc | inx | beq | sed
  deriving DecidableEq, Repr

/-- What an instruction does with memory besides its fetch (rule R107). -/
inductive Access where
  /-- no access: implied and accumulator instructions, `JMP abs`, the branches -/
  | idle
  /-- one read of the operand -/
  | read (src : Machine.Source)
  /-- one write of `ea` -/
  | write (m : Machine.MemMode)
  /-- one read, then one write of `ea` -/
  | modify (m : Machine.MemMode)
  /-- `n` pushes -/
  | push (n : Nat)
  /-- `n` pulls -/
  | pull (n : Nat)
  /-- two reads of the pointer of `JMP (ind)` -/
  | pointer (n : Word)
  /-- BRK: nothing, or three pushes and the vector, by `BRK_MODE` -/
  | brk
  /-- an opcode that raises HALT -/
  | halt
  deriving DecidableEq, Repr

/-- The operation of an instruction. -/
def Instr.op : Instr → Op
  | .brkImp => .brk
  | .oraIzx _ => .ora
  | .jamImp02 => .jam
  | .sloIzx _ => .slo
  | .nopZp04 _ => .nop
  | .oraZp _ => .ora
  | .aslZp _ => .asl
  | .sloZp _ => .slo
  | .phpImp => .php
  | .oraImm _ => .ora
  | .aslAcc => .asl
  | .ancImm0B _ => .anc
  | .nopAbs _ => .nop
  | .oraAbs _ => .ora
  | .aslAbs _ => .asl
  | .sloAbs _ => .slo
  | .bplRel _ => .bpl
  | .oraIzy _ => .ora
  | .jamImp12 => .jam
  | .sloIzy _ => .slo
  | .nopZpx14 _ => .nop
  | .oraZpx _ => .ora
  | .aslZpx _ => .asl
  | .sloZpx _ => .slo
  | .clcImp => .clc
  | .oraAby _ => .ora
  | .nopImp1A => .nop
  | .sloAby _ => .slo
  | .nopAbx1C _ => .nop
  | .oraAbx _ => .ora
  | .aslAbx _ => .asl
  | .sloAbx _ => .slo
  | .jsrAbs _ => .jsr
  | .andIzx _ => .and_
  | .jamImp22 => .jam
  | .rlaIzx _ => .rla
  | .bitZp _ => .bit
  | .andZp _ => .and_
  | .rolZp _ => .rol
  | .rlaZp _ => .rla
  | .plpImp => .plp
  | .andImm _ => .and_
  | .rolAcc => .rol
  | .ancImm2B _ => .anc
  | .bitAbs _ => .bit
  | .andAbs _ => .and_
  | .rolAbs _ => .rol
  | .rlaAbs _ => .rla
  | .bmiRel _ => .bmi
  | .andIzy _ => .and_
  | .jamImp32 => .jam
  | .rlaIzy _ => .rla
  | .nopZpx34 _ => .nop
  | .andZpx _ => .and_
  | .rolZpx _ => .rol
  | .rlaZpx _ => .rla
  | .secImp => .sec
  | .andAby _ => .and_
  | .nopImp3A => .nop
  | .rlaAby _ => .rla
  | .nopAbx3C _ => .nop
  | .andAbx _ => .and_
  | .rolAbx _ => .rol
  | .rlaAbx _ => .rla
  | .rtiImp => .rti
  | .eorIzx _ => .eor
  | .jamImp42 => .jam
  | .sreIzx _ => .sre
  | .nopZp44 _ => .nop
  | .eorZp _ => .eor
  | .lsrZp _ => .lsr
  | .sreZp _ => .sre
  | .phaImp => .pha
  | .eorImm _ => .eor
  | .lsrAcc => .lsr
  | .alrImm _ => .alr
  | .jmpAbs _ => .jmp
  | .eorAbs _ => .eor
  | .lsrAbs _ => .lsr
  | .sreAbs _ => .sre
  | .bvcRel _ => .bvc
  | .eorIzy _ => .eor
  | .jamImp52 => .jam
  | .sreIzy _ => .sre
  | .nopZpx54 _ => .nop
  | .eorZpx _ => .eor
  | .lsrZpx _ => .lsr
  | .sreZpx _ => .sre
  | .cliImp => .cli
  | .eorAby _ => .eor
  | .nopImp5A => .nop
  | .sreAby _ => .sre
  | .nopAbx5C _ => .nop
  | .eorAbx _ => .eor
  | .lsrAbx _ => .lsr
  | .sreAbx _ => .sre
  | .rtsImp => .rts
  | .adcIzx _ => .adc
  | .jamImp62 => .jam
  | .rraIzx _ => .rra
  | .nopZp64 _ => .nop
  | .adcZp _ => .adc
  | .rorZp _ => .ror
  | .rraZp _ => .rra
  | .plaImp => .pla
  | .adcImm _ => .adc
  | .rorAcc => .ror
  | .arrImm _ => .arr
  | .jmpInd _ => .jmp
  | .adcAbs _ => .adc
  | .rorAbs _ => .ror
  | .rraAbs _ => .rra
  | .bvsRel _ => .bvs
  | .adcIzy _ => .adc
  | .jamImp72 => .jam
  | .rraIzy _ => .rra
  | .nopZpx74 _ => .nop
  | .adcZpx _ => .adc
  | .rorZpx _ => .ror
  | .rraZpx _ => .rra
  | .seiImp => .sei
  | .adcAby _ => .adc
  | .nopImp7A => .nop
  | .rraAby _ => .rra
  | .nopAbx7C _ => .nop
  | .adcAbx _ => .adc
  | .rorAbx _ => .ror
  | .rraAbx _ => .rra
  | .nopImm80 _ => .nop
  | .staIzx _ => .sta
  | .nopImm82 _ => .nop
  | .saxIzx _ => .sax
  | .styZp _ => .sty
  | .staZp _ => .sta
  | .stxZp _ => .stx
  | .saxZp _ => .sax
  | .deyImp => .dey
  | .nopImm89 _ => .nop
  | .txaImp => .txa
  | .xaaImm _ => .xaa
  | .styAbs _ => .sty
  | .staAbs _ => .sta
  | .stxAbs _ => .stx
  | .saxAbs _ => .sax
  | .bccRel _ => .bcc
  | .staIzy _ => .sta
  | .jamImp92 => .jam
  | .shaIzy _ => .sha
  | .styZpx _ => .sty
  | .staZpx _ => .sta
  | .stxZpy _ => .stx
  | .saxZpy _ => .sax
  | .tyaImp => .tya
  | .staAby _ => .sta
  | .txsImp => .txs
  | .tasAby _ => .tas
  | .shyAbx _ => .shy
  | .staAbx _ => .sta
  | .shxAby _ => .shx
  | .shaAby _ => .sha
  | .ldyImm _ => .ldy
  | .ldaIzx _ => .lda
  | .ldxImm _ => .ldx
  | .laxIzx _ => .lax
  | .ldyZp _ => .ldy
  | .ldaZp _ => .lda
  | .ldxZp _ => .ldx
  | .laxZp _ => .lax
  | .tayImp => .tay
  | .ldaImm _ => .lda
  | .taxImp => .tax
  | .lxaImm _ => .lxa
  | .ldyAbs _ => .ldy
  | .ldaAbs _ => .lda
  | .ldxAbs _ => .ldx
  | .laxAbs _ => .lax
  | .bcsRel _ => .bcs
  | .ldaIzy _ => .lda
  | .jamImpB2 => .jam
  | .laxIzy _ => .lax
  | .ldyZpx _ => .ldy
  | .ldaZpx _ => .lda
  | .ldxZpy _ => .ldx
  | .laxZpy _ => .lax
  | .clvImp => .clv
  | .ldaAby _ => .lda
  | .tsxImp => .tsx
  | .lasAby _ => .las
  | .ldyAbx _ => .ldy
  | .ldaAbx _ => .lda
  | .ldxAby _ => .ldx
  | .laxAby _ => .lax
  | .cpyImm _ => .cpy
  | .cmpIzx _ => .cmp
  | .nopImmC2 _ => .nop
  | .dcpIzx _ => .dcp
  | .cpyZp _ => .cpy
  | .cmpZp _ => .cmp
  | .decZp _ => .dec
  | .dcpZp _ => .dcp
  | .inyImp => .iny
  | .cmpImm _ => .cmp
  | .dexImp => .dex
  | .axsImm _ => .axs
  | .cpyAbs _ => .cpy
  | .cmpAbs _ => .cmp
  | .decAbs _ => .dec
  | .dcpAbs _ => .dcp
  | .bneRel _ => .bne
  | .cmpIzy _ => .cmp
  | .jamImpD2 => .jam
  | .dcpIzy _ => .dcp
  | .nopZpxD4 _ => .nop
  | .cmpZpx _ => .cmp
  | .decZpx _ => .dec
  | .dcpZpx _ => .dcp
  | .cldImp => .cld
  | .cmpAby _ => .cmp
  | .nopImpDA => .nop
  | .dcpAby _ => .dcp
  | .nopAbxDC _ => .nop
  | .cmpAbx _ => .cmp
  | .decAbx _ => .dec
  | .dcpAbx _ => .dcp
  | .cpxImm _ => .cpx
  | .sbcIzx _ => .sbc
  | .nopImmE2 _ => .nop
  | .iscIzx _ => .isc
  | .cpxZp _ => .cpx
  | .sbcZp _ => .sbc
  | .incZp _ => .inc
  | .iscZp _ => .isc
  | .inxImp => .inx
  | .sbcImm _ => .sbc
  | .nopImp => .nop
  | .sbcImmEB _ => .sbc
  | .cpxAbs _ => .cpx
  | .sbcAbs _ => .sbc
  | .incAbs _ => .inc
  | .iscAbs _ => .isc
  | .beqRel _ => .beq
  | .sbcIzy _ => .sbc
  | .jamImpF2 => .jam
  | .iscIzy _ => .isc
  | .nopZpxF4 _ => .nop
  | .sbcZpx _ => .sbc
  | .incZpx _ => .inc
  | .iscZpx _ => .isc
  | .sedImp => .sed
  | .sbcAby _ => .sbc
  | .nopImpFA => .nop
  | .iscAby _ => .isc
  | .nopAbxFC _ => .nop
  | .sbcAbx _ => .sbc
  | .incAbx _ => .inc
  | .iscAbx _ => .isc

/-- The access class of an instruction. -/
def Instr.access : Instr → Access
  | .brkImp => .brk
  | .oraIzx b => .read (.mem (.izx b))
  | .jamImp02 => .halt
  | .sloIzx b => .modify (.izx b)
  | .nopZp04 b => .read (.mem (.zp b))
  | .oraZp b => .read (.mem (.zp b))
  | .aslZp b => .modify (.zp b)
  | .sloZp b => .modify (.zp b)
  | .phpImp => .push 1
  | .oraImm b => .read (.imm b)
  | .aslAcc => .idle
  | .ancImm0B b => .read (.imm b)
  | .nopAbs n => .read (.mem (.abs n))
  | .oraAbs n => .read (.mem (.abs n))
  | .aslAbs n => .modify (.abs n)
  | .sloAbs n => .modify (.abs n)
  | .bplRel _ => .idle
  | .oraIzy b => .read (.mem (.izy b))
  | .jamImp12 => .halt
  | .sloIzy b => .modify (.izy b)
  | .nopZpx14 b => .read (.mem (.zpx b))
  | .oraZpx b => .read (.mem (.zpx b))
  | .aslZpx b => .modify (.zpx b)
  | .sloZpx b => .modify (.zpx b)
  | .clcImp => .idle
  | .oraAby n => .read (.mem (.aby n))
  | .nopImp1A => .idle
  | .sloAby n => .modify (.aby n)
  | .nopAbx1C n => .read (.mem (.abx n))
  | .oraAbx n => .read (.mem (.abx n))
  | .aslAbx n => .modify (.abx n)
  | .sloAbx n => .modify (.abx n)
  | .jsrAbs _ => .push 2
  | .andIzx b => .read (.mem (.izx b))
  | .jamImp22 => .halt
  | .rlaIzx b => .modify (.izx b)
  | .bitZp b => .read (.mem (.zp b))
  | .andZp b => .read (.mem (.zp b))
  | .rolZp b => .modify (.zp b)
  | .rlaZp b => .modify (.zp b)
  | .plpImp => .pull 1
  | .andImm b => .read (.imm b)
  | .rolAcc => .idle
  | .ancImm2B b => .read (.imm b)
  | .bitAbs n => .read (.mem (.abs n))
  | .andAbs n => .read (.mem (.abs n))
  | .rolAbs n => .modify (.abs n)
  | .rlaAbs n => .modify (.abs n)
  | .bmiRel _ => .idle
  | .andIzy b => .read (.mem (.izy b))
  | .jamImp32 => .halt
  | .rlaIzy b => .modify (.izy b)
  | .nopZpx34 b => .read (.mem (.zpx b))
  | .andZpx b => .read (.mem (.zpx b))
  | .rolZpx b => .modify (.zpx b)
  | .rlaZpx b => .modify (.zpx b)
  | .secImp => .idle
  | .andAby n => .read (.mem (.aby n))
  | .nopImp3A => .idle
  | .rlaAby n => .modify (.aby n)
  | .nopAbx3C n => .read (.mem (.abx n))
  | .andAbx n => .read (.mem (.abx n))
  | .rolAbx n => .modify (.abx n)
  | .rlaAbx n => .modify (.abx n)
  | .rtiImp => .pull 3
  | .eorIzx b => .read (.mem (.izx b))
  | .jamImp42 => .halt
  | .sreIzx b => .modify (.izx b)
  | .nopZp44 b => .read (.mem (.zp b))
  | .eorZp b => .read (.mem (.zp b))
  | .lsrZp b => .modify (.zp b)
  | .sreZp b => .modify (.zp b)
  | .phaImp => .push 1
  | .eorImm b => .read (.imm b)
  | .lsrAcc => .idle
  | .alrImm b => .read (.imm b)
  | .jmpAbs _ => .idle
  | .eorAbs n => .read (.mem (.abs n))
  | .lsrAbs n => .modify (.abs n)
  | .sreAbs n => .modify (.abs n)
  | .bvcRel _ => .idle
  | .eorIzy b => .read (.mem (.izy b))
  | .jamImp52 => .halt
  | .sreIzy b => .modify (.izy b)
  | .nopZpx54 b => .read (.mem (.zpx b))
  | .eorZpx b => .read (.mem (.zpx b))
  | .lsrZpx b => .modify (.zpx b)
  | .sreZpx b => .modify (.zpx b)
  | .cliImp => .idle
  | .eorAby n => .read (.mem (.aby n))
  | .nopImp5A => .idle
  | .sreAby n => .modify (.aby n)
  | .nopAbx5C n => .read (.mem (.abx n))
  | .eorAbx n => .read (.mem (.abx n))
  | .lsrAbx n => .modify (.abx n)
  | .sreAbx n => .modify (.abx n)
  | .rtsImp => .pull 2
  | .adcIzx b => .read (.mem (.izx b))
  | .jamImp62 => .halt
  | .rraIzx b => .modify (.izx b)
  | .nopZp64 b => .read (.mem (.zp b))
  | .adcZp b => .read (.mem (.zp b))
  | .rorZp b => .modify (.zp b)
  | .rraZp b => .modify (.zp b)
  | .plaImp => .pull 1
  | .adcImm b => .read (.imm b)
  | .rorAcc => .idle
  | .arrImm b => .read (.imm b)
  | .jmpInd n => .pointer n
  | .adcAbs n => .read (.mem (.abs n))
  | .rorAbs n => .modify (.abs n)
  | .rraAbs n => .modify (.abs n)
  | .bvsRel _ => .idle
  | .adcIzy b => .read (.mem (.izy b))
  | .jamImp72 => .halt
  | .rraIzy b => .modify (.izy b)
  | .nopZpx74 b => .read (.mem (.zpx b))
  | .adcZpx b => .read (.mem (.zpx b))
  | .rorZpx b => .modify (.zpx b)
  | .rraZpx b => .modify (.zpx b)
  | .seiImp => .idle
  | .adcAby n => .read (.mem (.aby n))
  | .nopImp7A => .idle
  | .rraAby n => .modify (.aby n)
  | .nopAbx7C n => .read (.mem (.abx n))
  | .adcAbx n => .read (.mem (.abx n))
  | .rorAbx n => .modify (.abx n)
  | .rraAbx n => .modify (.abx n)
  | .nopImm80 b => .read (.imm b)
  | .staIzx b => .write (.izx b)
  | .nopImm82 b => .read (.imm b)
  | .saxIzx b => .write (.izx b)
  | .styZp b => .write (.zp b)
  | .staZp b => .write (.zp b)
  | .stxZp b => .write (.zp b)
  | .saxZp b => .write (.zp b)
  | .deyImp => .idle
  | .nopImm89 b => .read (.imm b)
  | .txaImp => .idle
  | .xaaImm _ => .halt
  | .styAbs n => .write (.abs n)
  | .staAbs n => .write (.abs n)
  | .stxAbs n => .write (.abs n)
  | .saxAbs n => .write (.abs n)
  | .bccRel _ => .idle
  | .staIzy b => .write (.izy b)
  | .jamImp92 => .halt
  | .shaIzy _ => .halt
  | .styZpx b => .write (.zpx b)
  | .staZpx b => .write (.zpx b)
  | .stxZpy b => .write (.zpy b)
  | .saxZpy b => .write (.zpy b)
  | .tyaImp => .idle
  | .staAby n => .write (.aby n)
  | .txsImp => .idle
  | .tasAby _ => .halt
  | .shyAbx _ => .halt
  | .staAbx n => .write (.abx n)
  | .shxAby _ => .halt
  | .shaAby _ => .halt
  | .ldyImm b => .read (.imm b)
  | .ldaIzx b => .read (.mem (.izx b))
  | .ldxImm b => .read (.imm b)
  | .laxIzx b => .read (.mem (.izx b))
  | .ldyZp b => .read (.mem (.zp b))
  | .ldaZp b => .read (.mem (.zp b))
  | .ldxZp b => .read (.mem (.zp b))
  | .laxZp b => .read (.mem (.zp b))
  | .tayImp => .idle
  | .ldaImm b => .read (.imm b)
  | .taxImp => .idle
  | .lxaImm _ => .halt
  | .ldyAbs n => .read (.mem (.abs n))
  | .ldaAbs n => .read (.mem (.abs n))
  | .ldxAbs n => .read (.mem (.abs n))
  | .laxAbs n => .read (.mem (.abs n))
  | .bcsRel _ => .idle
  | .ldaIzy b => .read (.mem (.izy b))
  | .jamImpB2 => .halt
  | .laxIzy b => .read (.mem (.izy b))
  | .ldyZpx b => .read (.mem (.zpx b))
  | .ldaZpx b => .read (.mem (.zpx b))
  | .ldxZpy b => .read (.mem (.zpy b))
  | .laxZpy b => .read (.mem (.zpy b))
  | .clvImp => .idle
  | .ldaAby n => .read (.mem (.aby n))
  | .tsxImp => .idle
  | .lasAby n => .read (.mem (.aby n))
  | .ldyAbx n => .read (.mem (.abx n))
  | .ldaAbx n => .read (.mem (.abx n))
  | .ldxAby n => .read (.mem (.aby n))
  | .laxAby n => .read (.mem (.aby n))
  | .cpyImm b => .read (.imm b)
  | .cmpIzx b => .read (.mem (.izx b))
  | .nopImmC2 b => .read (.imm b)
  | .dcpIzx b => .modify (.izx b)
  | .cpyZp b => .read (.mem (.zp b))
  | .cmpZp b => .read (.mem (.zp b))
  | .decZp b => .modify (.zp b)
  | .dcpZp b => .modify (.zp b)
  | .inyImp => .idle
  | .cmpImm b => .read (.imm b)
  | .dexImp => .idle
  | .axsImm b => .read (.imm b)
  | .cpyAbs n => .read (.mem (.abs n))
  | .cmpAbs n => .read (.mem (.abs n))
  | .decAbs n => .modify (.abs n)
  | .dcpAbs n => .modify (.abs n)
  | .bneRel _ => .idle
  | .cmpIzy b => .read (.mem (.izy b))
  | .jamImpD2 => .halt
  | .dcpIzy b => .modify (.izy b)
  | .nopZpxD4 b => .read (.mem (.zpx b))
  | .cmpZpx b => .read (.mem (.zpx b))
  | .decZpx b => .modify (.zpx b)
  | .dcpZpx b => .modify (.zpx b)
  | .cldImp => .idle
  | .cmpAby n => .read (.mem (.aby n))
  | .nopImpDA => .idle
  | .dcpAby n => .modify (.aby n)
  | .nopAbxDC n => .read (.mem (.abx n))
  | .cmpAbx n => .read (.mem (.abx n))
  | .decAbx n => .modify (.abx n)
  | .dcpAbx n => .modify (.abx n)
  | .cpxImm b => .read (.imm b)
  | .sbcIzx b => .read (.mem (.izx b))
  | .nopImmE2 b => .read (.imm b)
  | .iscIzx b => .modify (.izx b)
  | .cpxZp b => .read (.mem (.zp b))
  | .sbcZp b => .read (.mem (.zp b))
  | .incZp b => .modify (.zp b)
  | .iscZp b => .modify (.zp b)
  | .inxImp => .idle
  | .sbcImm b => .read (.imm b)
  | .nopImp => .idle
  | .sbcImmEB b => .read (.imm b)
  | .cpxAbs n => .read (.mem (.abs n))
  | .sbcAbs n => .read (.mem (.abs n))
  | .incAbs n => .modify (.abs n)
  | .iscAbs n => .modify (.abs n)
  | .beqRel _ => .idle
  | .sbcIzy b => .read (.mem (.izy b))
  | .jamImpF2 => .halt
  | .iscIzy b => .modify (.izy b)
  | .nopZpxF4 b => .read (.mem (.zpx b))
  | .sbcZpx b => .read (.mem (.zpx b))
  | .incZpx b => .modify (.zpx b)
  | .iscZpx b => .modify (.zpx b)
  | .sedImp => .idle
  | .sbcAby n => .read (.mem (.aby n))
  | .nopImpFA => .idle
  | .iscAby n => .modify (.aby n)
  | .nopAbxFC n => .read (.mem (.abx n))
  | .sbcAbx n => .read (.mem (.abx n))
  | .incAbx n => .modify (.abx n)
  | .iscAbx n => .modify (.abx n)

end Sys2Proof
end

