-- ==== Sys2Proof/Machine/View.lean ====
section
/-! DEFINITION. What a claim reads off a state: effective addresses as plain formulas over the state before the
instruction, the bytes an instruction stores to, the bytes at `PC`, the dot number. Nothing of the machine calls
these; the claims hold the machine against them. -/

namespace Sys2Proof.Machine

/-! ## Addresses (40_addressing) -/

/-- The RAM byte at page-0 address `z` (50_bus rule R302). -/
def zeroPageByte (z : Byte) (s : State) : Byte := readCell s.bus.ram z.toNat

/-- The pointer at `z` in page 0, wrapping inside the page (rules R98, R99). -/
def zeroPageWord (z : Byte) (s : State) : Word := mkWord (zeroPageByte (z + 1) s) (zeroPageByte z s)

/-- The address a mode indexes from: `base` of rules R99, R101, R102, else the effective address itself. -/
def baseAddress (m : MemMode) (s : State) : Word :=
  match m with
  | .zp b => mkWord 0x00 b
  | .zpx b => mkWord 0x00 (b + s.cpu.x)
  | .zpy b => mkWord 0x00 (b + s.cpu.y)
  | .abs n => n
  | .abx n => n
  | .aby n => n
  | .izx b => zeroPageWord (b + s.cpu.x) s
  | .izy b => zeroPageWord b s

/-- `ea` (the table of rule R108). -/
def effectiveAddress (m : MemMode) (s : State) : Word :=
  match m with
  | .abx _ => baseAddress m s + mkWord 0x00 s.cpu.x
  | .aby _ => baseAddress m s + mkWord 0x00 s.cpu.y
  | .izy _ => baseAddress m s + mkWord 0x00 s.cpu.y
  | _ => baseAddress m s

/-- `crossed` (rule R104): the page of `ea` is not the page of the base. -/
def crossesPage (m : MemMode) (s : State) : Bool :=
  decide ((effectiveAddress m s).toNat / 256 ≠ (baseAddress m s).toNat / 256)

/-- The operand of a read instruction and the machine after the read of it (rule R107). -/
def operandRead (src : Source) (s : State) : Read :=
  match src with
  | .imm b => { val := b, st := s }
  | .mem m => busRead (effectiveAddress m s) s

/-- Whether the operand's address computation crosses a page. -/
def sourceCrosses (src : Source) (s : State) : Bool :=
  match src with
  | .imm _ => false
  | .mem m => crossesPage m s

/-! ## What an instruction leaves, by access class (rules R105, R107) -/

/-- The CPU `c` after an instruction of cost `n`. -/
def spent (n : Nat) (c : Cpu) : Cpu := { c with cycles := c.cycles + n }

/-- What a read instruction leaves: `f` of the operand and the old registers, everything outside the CPU as the one
operand read left it. -/
def reads (base : Nat) (penalty : Bool) (src : Source) (f : Byte → Cpu → Cpu) (s : State) : Out :=
  let r := operandRead src s
  let cost := if penalty && sourceCrosses src s then base + 1 else base
  .next { r.st with cpu := spent cost (f r.val s.cpu) }

/-- What a write instruction leaves: `v` written at `ea`, and no register changed. -/
def writes (base : Nat) (m : MemMode) (v : Byte) (s : State) : Out :=
  .next { busWrite (effectiveAddress m s) v s with cpu := spent base s.cpu }

/-- What a read-modify-write instruction leaves: `f m` written where `m` was read, `g m (f m)` of the old
registers. -/
def modifies (base : Nat) (m : MemMode) (f : Byte → Byte) (g : Byte → Byte → Cpu → Cpu) (s : State) : Out :=
  let r := busRead (effectiveAddress m s) s
  .next { busWrite (effectiveAddress m s) (f r.val) r.st with cpu := spent base (g r.val (f r.val) s.cpu) }

/-- What an instruction without memory access leaves. -/
def touchesCpu (base : Nat) (f : Cpu → Cpu) (s : State) : Out := .next { s with cpu := spent base (f s.cpu) }

/-! ## The stack page (20_memory rules R45 to R47) -/

/-- The RAM byte at stack pointer value `p`: the byte at 0x0100 + `p`. -/
def stackByte (p : Byte) (s : State) : Byte := readCell s.bus.ram (0x100 + p.toNat)

/-- The RAM with `v` stored at stack pointer value `p`. -/
def stackStore (p v : Byte) (ram : Memory) : Memory := writeCell ram (0x100 + p.toNat) v

/-! ## Frames -/

/-- The addresses an instruction stores to, in order. -/
def storedAddresses (i : Instr) (s : State) : List Word :=
  match i.access with
  | .write m => [effectiveAddress m s]
  | .modify m => [effectiveAddress m s]
  | .push n => (List.range n).map fun k => mkWord 0x01 (s.cpu.s - BitVec.ofNat 8 k)
  | .brk =>
    match s.params.brkMode with
    | .halt => []
    | .interrupt => (List.range 3).map fun k => mkWord 0x01 (s.cpu.s - BitVec.ofNat 8 k)
  | .idle => []
  | .read _ => []
  | .pull _ => []
  | .pointer _ => []
  | .halt => []

/-- Whether a store to `w` can change what a read of `a` gives: the same RAM byte (50_bus rule R302), or a bank write
(52_cartridge_sync rule R409) and an address of the switchable window. -/
def disturbs (w a : Word) (s : State) : Bool :=
  (decide (w < 0x2000) && decide (a < 0x2000) && decide (w.toNat % 2048 = a.toNat % 2048)) ||
  (decide (s.cart.mapper = .banked) && decide (0x8000 ≤ w) && decide (0x8000 ≤ a) && decide (a < 0xC000))

/-! ## The controller ports (50_bus rule R305) -/

/-- The machine after `n` reads of address `a`. -/
def afterReads (a : Word) : Nat → State → State
  | 0, s => s
  | n + 1, s => (busRead a (afterReads a n s)).st

/-! ## The PPU's own space (51_ppu rules R334, R335) -/

/-- The byte of `vram` behind a nametable address, by remainders. -/
def vramByte (m : Mirroring) (a : Word) : Nat :=
  match m with
  | .vertical => a.toNat % 0x800
  | .horizontal => a.toNat / 0x800 % 2 * 0x400 + a.toNat % 0x400

/-- The entry of `palette` behind a palette address: every fourth entry of the sprite half is its background twin. -/
def paletteByte (a : Word) : Nat := if a.toNat % 4 = 0 then a.toNat % 16 else a.toNat % 32

/-! ## The step -/

/-- The bytes `bs` stand at `a` and up, in memory whose reads have no side effect. -/
def BytesAt (a : Word) (bs : List Byte) (s : State) : Prop :=
  match bs with
  | [] => True
  | b :: rest => peek a s = some b ∧ BytesAt (a + 1) rest s

/-- The machine whose `PC` moved past `n` instruction bytes. -/
def skip (n : Nat) (s : State) : State := { s with cpu := { s.cpu with pc := s.cpu.pc + BitVec.ofNat 16 n } }

/-- What the step does after the CPU's part (52_cartridge_sync rule R420), for an instruction that `t0` started. -/
def finish (t0 : State) (o : Out) : Out :=
  match o with
  | .next t => .next (afterCpu t0.cpu.cycles t)
  | .fault r => .fault r
  | .refused r => .refused r

/-- The number of a dot in its frame: 0 to 89,341 (51_ppu rules R350, R351). -/
def dotNumber (p : Ppu) : Nat := p.scanline * dotsPerLine + p.cycle

end Sys2Proof.Machine
end

