-- ==== Sys2Proof/Machine/Effects.lean ====
section
/-! DEFINITION. What the rules of 41_load_store_transfer to 47_undocumented do to the CPU's registers, and the pixel that
the rules of 51_ppu compose, written a second time as formulas over natural numbers and integers. Nothing of the machine
calls these; the claims hold the meanings and the dot against them. -/

namespace Sys2Proof.Machine

/-! ## Loads and flags -/

/-- `SetNZ(v)` (00_scope rule R6). -/
def flagsNZ (v : Byte) (p : Flags) : Flags := { p with z := decide (v.toNat = 0), n := decide (128 ≤ v.toNat) }

/-- `A <- v; SetNZ(v)`. -/
def gotA (v : Byte) (c : Cpu) : Cpu := { c with a := v, p := flagsNZ v c.p }

/-- `X <- v; SetNZ(v)`. -/
def gotX (v : Byte) (c : Cpu) : Cpu := { c with x := v, p := flagsNZ v c.p }

/-- `Y <- v; SetNZ(v)`. -/
def gotY (v : Byte) (c : Cpu) : Cpu := { c with y := v, p := flagsNZ v c.p }

/-- `C <- f`. -/
def carry (f : Bool) (c : Cpu) : Cpu := { c with p := { c.p with c := f } }

/-- `Compare(r, m)` (43_logic_arith rule R161): `C` no borrow, `Z` equal, `N` bit 7 of the difference. -/
def compared (r m : Byte) (c : Cpu) : Cpu :=
  { c with p := { flagsNZ (BitVec.ofInt 8 (r.toNat - m.toNat : Int)) c.p with c := decide (m.toNat ≤ r.toNat) } }

/-- BIT (rule R153). -/
def bitTested (m : Byte) (c : Cpu) : Cpu :=
  { c with p := { c.p with
      z := decide ((c.a &&& m).toNat = 0), n := decide (128 ≤ m.toNat), v := decide (64 ≤ m.toNat % 128) } }

/-! ## Addition and subtraction -/

/-- `V` of a sum `r` of `a` and `m`: their signs agree and `r`'s differs (rule R158). -/
def signFlips (a m r : Nat) : Bool :=
  decide (a / 128 % 2 = m / 128 % 2) && decide (r / 128 % 2 ≠ a / 128 % 2)

/-- `AddCore(m)`, binary case (rule R158). -/
def addedBinary (m : Byte) (c : Cpu) : Cpu :=
  let sum := c.a.toNat + m.toNat + c.p.c.toNat
  let r := BitVec.ofNat 8 sum
  { c with
    a := r
    p := { flagsNZ r c.p with c := decide (256 ≤ sum), v := signFlips c.a.toNat m.toNat (sum % 256) } }

/-- `t` of rule R158's decimal case before the correction of the high digit. -/
def decimalPartial (a m k : Nat) : Nat :=
  let al := a % 16 + m % 16 + k
  (a - a % 16) + (m - m % 16) + (if al < 10 then al else (al + 6) % 16 + 16)

/-- `AddCore(m)`, decimal case (rule R158). -/
def addedDecimal (m : Byte) (c : Cpu) : Cpu :=
  let t := decimalPartial c.a.toNat m.toNat c.p.c.toNat
  let u := if t < 160 then t else t + 96
  { c with
    a := BitVec.ofNat 8 u
    p := { c.p with
      c := decide (256 ≤ u)
      z := decide ((c.a.toNat + m.toNat + c.p.c.toNat) % 256 = 0)
      n := decide (t / 128 % 2 = 1)
      v := signFlips c.a.toNat m.toNat t } }

/-- `AddCore(m)` (rule R158). -/
def added (params : Params) (m : Byte) (c : Cpu) : Cpu :=
  if c.p.d = true ∧ params.decimalEnabled = true then addedDecimal m c else addedBinary m c

/-- `A - m` and the borrow, as an integer (rule R160). -/
def difference (a m : Byte) (k : Bool) : Int := (a.toNat : Int) - m.toNat - (if k then 0 else 1)

/-- The accumulator of rule R160's decimal case. -/
def decimalSubtracted (a m : Byte) (k : Bool) : Byte :=
  let al : Int := (a.toNat % 16 : Nat) - (m.toNat % 16 : Nat) - (if k then 0 else 1)
  let hi : Int := (16 * (a.toNat / 16) : Nat) - (16 * (m.toNat / 16) : Nat)
  let t := hi + (if al < 0 then (al - 6) % 16 - 16 else al)
  BitVec.ofInt 8 (if t < 0 then t - 96 else t)

/-- `SubCore(m)` (rule R160). -/
def subtracted (params : Params) (m : Byte) (c : Cpu) : Cpu :=
  let d := difference c.a m c.p.c
  let r := BitVec.ofInt 8 d
  { c with
    a := if c.p.d = true ∧ params.decimalEnabled = true then decimalSubtracted c.a m c.p.c else r
    p := { flagsNZ r c.p with
      c := decide (0 ≤ d)
      v := decide (c.a.toNat / 128 ≠ m.toNat / 128) && decide (r.toNat / 128 ≠ c.a.toNat / 128) } }

/-! ## Shifts and rotates (44_incdec_shift rules R176 to R179) -/

/-- `m << 1` with `k` shifted in at bit 0. -/
def leftWith (k : Bool) (m : Byte) : Byte := BitVec.ofNat 8 (2 * m.toNat + k.toNat)

/-- `m >> 1` with `k` shifted in at bit 7. -/
def rightWith (k : Bool) (m : Byte) : Byte := BitVec.ofNat 8 (m.toNat / 2 + 128 * k.toNat)

/-- Bit 7, the bit a left shift pushes out. -/
def topBit (m : Byte) : Bool := decide (128 ≤ m.toNat)

/-- Bit 0, the bit a right shift pushes out. -/
def lowBit (m : Byte) : Bool := decide (m.toNat % 2 = 1)

/-- Bit 6. -/
def bitSix (m : Byte) : Bool := decide (64 ≤ m.toNat % 128)

/-- Bit 5. -/
def bitFive (m : Byte) : Bool := decide (32 ≤ m.toNat % 64)

/-! ## ARR (47_undocumented rule R241) -/

/-- A digit and its own bit 0 exceed 5, the test of the decimal variant. -/
def arrAdjusts (digit : Nat) : Bool := decide (5 < digit + digit % 2)

/-- ARR in decimal mode. -/
def arrDecimal (m : Byte) (c : Cpu) : Cpu :=
  let t := c.a &&& m
  let r := rightWith c.p.c t
  let low := if arrAdjusts (t.toNat % 16) then 16 * (r.toNat / 16) + (r.toNat + 6) % 16 else r.toNat
  let high := arrAdjusts (t.toNat / 16)
  { c with
    a := BitVec.ofNat 8 (if high then low + 96 else low)
    p := { c.p with
      n := c.p.c, z := decide (r.toNat = 0), v := decide (bitSix t ≠ bitSix r), c := high } }

/-- ARR. -/
def arrLeaves (params : Params) (m : Byte) (c : Cpu) : Cpu :=
  let r := rightWith c.p.c (c.a &&& m)
  if c.p.d = true ∧ params.decimalEnabled = true then arrDecimal m c
  else { c with a := r, p := { flagsNZ r c.p with c := bitSix r, v := decide (bitSix r ≠ bitFive r) } }

/-! ## Branches (45_control rule R193) -/

/-- The target of a branch: the signed displacement added to the address of the next instruction. -/
def branchTarget (pc : Word) (d : Byte) : Word := BitVec.ofInt 16 ((pc.toNat : Int) + d.toInt)

/-- What a branch leaves: two cycles, three when taken, four when the target is in another page. -/
def branches (taken : Bool) (d : Byte) (s : State) : Out :=
  let target := branchTarget s.cpu.pc d
  if taken then
    touchesCpu (if target.toNat / 256 = s.cpu.pc.toNat / 256 then 3 else 4) (fun c => { c with pc := target }) s
  else touchesCpu 2 (fun c => c) s

/-- The condition of each branch operation (rules R194 to R201); the other operations have none. -/
def branchTaken (o : Op) (p : Flags) : Bool :=
  match o with
  | .bcc => !p.c
  | .bcs => p.c
  | .beq => p.z
  | .bne => !p.z
  | .bmi => p.n
  | .bpl => !p.n
  | .bvc => !p.v
  | .bvs => p.v
  | _ => false

/-! ## The cost of a step (40_addressing rule R105) -/

/-- Whether the address computation of an instruction crosses a page (rule R104): only a read pays for it. -/
def operandCrosses (i : Instr) (s : State) : Bool :=
  match i.access with
  | .read src => sourceCrosses src s
  | _ => false

/-- The cost of an instruction by the table of 30_encoding rule R77. A branch's displacement is its second byte. -/
def tableCost (i : Instr) (s : State) : Nat :=
  match costCell i.opcode with
  | .fix n => if i.op = .brk ∧ s.params.brkMode = .halt then 0 else n
  | .pen n => if operandCrosses i s then n + 1 else n
  | .br =>
    let target := branchTarget s.cpu.pc ((encode i).getD 1 0)
    if branchTaken i.op s.cpu.p then (if target.toNat / 256 = s.cpu.pc.toNat / 256 then 3 else 4) else 2
  | .halt => 0

/-! ## The status byte (10_state rules R17, R18) -/

/-- `pack(P, b)` as a number. -/
def packed (p : Flags) (b : Bool) : Nat :=
  128 * p.n.toNat + 64 * p.v.toNat + 32 + 16 * b.toNat + 8 * p.d.toNat + 4 * p.i.toNat + 2 * p.z.toNat + p.c.toNat

/-- `unpack(v)`: each flag from its bit, `B` kept. -/
def unpacked (v : Byte) (p : Flags) : Flags :=
  { n := decide (v.toNat / 128 % 2 = 1), v := decide (v.toNat / 64 % 2 = 1), d := decide (v.toNat / 8 % 2 = 1)
    i := decide (v.toNat / 4 % 2 = 1), z := decide (v.toNat / 2 % 2 = 1), c := decide (v.toNat % 2 = 1), b := p.b }

/-! ## HALT and interrupt entry -/

/-- The CPU after HALT with cause `h`: `PC` at the opcode byte (60_exceptions rule R441). -/
def stopped (pc0 : Word) (h : HaltCause) (c : Cpu) : Cpu :=
  { c with pc := pc0, halted := true, haltCause := some h }

/-- The machine in which an interrupt entry reads its vector: `PC` and status pushed, `I` set (rule R449). -/
def afterPushes (b : Bool) (s : State) : State :=
  { s with
    cpu := { s.cpu with s := s.cpu.s - 3, p := { s.cpu.p with i := true } }
    bus := { s.bus with
      ram := stackStore (s.cpu.s - 2) (BitVec.ofNat 8 (packed s.cpu.p b))
        (stackStore (s.cpu.s - 1) (loByte s.cpu.pc) (stackStore s.cpu.s (hiByte s.cpu.pc) s.bus.ram)) } }

/-- The machine after an interrupt entry through the vector word `target`. -/
def entryTo (target : Word) (b : Bool) (s : State) : State :=
  { afterPushes b s with cpu := { (afterPushes b s).cpu with pc := target } }

/-- The word a vector holds: both its bytes are program data on this platform (20_memory rule R48, 50_bus rule
R307). -/
def VectorHolds (vec target : Word) (s : State) : Prop :=
  peek vec s = some (loByte target) ∧ peek (vec + 1) s = some (hiByte target)

/-! ## The pixel of a visible dot, from the PPU as it stands before the dot (51_ppu rules R365 to R368) -/

/-- Bits `k` of two planes as a number, 0 to 3. -/
def planeBits {n : Nat} (hi lo : BitVec n) (k : Nat) : Nat := 2 * (hi.getLsbD k).toNat + (lo.getLsbD k).toNat

/-- The pixel column `px` of a dot. -/
def column (p : Ppu) : Nat := p.cycle - 1

/-- Whether a layer shows at the dot's column: its bit of `mask`, and its left-edge bit in the first eight columns. -/
def layerShows (p : Ppu) (layer left : Nat) : Bool :=
  p.mask.getLsbD layer && (p.mask.getLsbD left || decide (8 ≤ column p))

/-- Rule R365's bit `15 - x`, counted in the registers before the dot: every visible dot but dot 1 shifts them by one
before its pixel (rules R350, R355). -/
def shownBit (p : Ppu) : Nat := if p.cycle = 1 then 15 - p.x.toNat else 14 - p.x.toNat

/-- `bg_pixel` (rule R365). -/
def backgroundValue (p : Ppu) : Nat :=
  if layerShows p 3 1 then planeBits p.bg.patHi p.bg.patLo (shownBit p) else 0

/-- `bg_pal` (rule R365). -/
def backgroundPalette (p : Ppu) : Nat :=
  if layerShows p 3 1 then planeBits p.bg.attHi p.bg.attLo (shownBit p) else 0

/-- `p` of rule R366 for one record, zero where the record does not cover the column. -/
def coverage (r : LineSprite) (px : Nat) : Nat :=
  if r.x.toNat ≤ px ∧ px ≤ r.x.toNat + 7 then planeBits r.hi r.lo (r.x.toNat + 7 - px) else 0

/-- The record that gives the sprite pixel, none where `fg_pixel` is 0 (rule R366). -/
def shownSprite (p : Ppu) : Option LineSprite :=
  if layerShows p 4 2 then p.lineSprites.find? (fun r => decide (coverage r (column p) ≠ 0)) else none

/-- The palette entry the dot shows, 0 to 31: the priority table of rule R367 with the address of rule R368. -/
def shownEntry (p : Ppu) : Nat :=
  let background := if backgroundValue p = 0 then 0 else 4 * backgroundPalette p + backgroundValue p
  match shownSprite p with
  | none => background
  | some r =>
    if backgroundValue p = 0 ∨ r.attr.getLsbD 5 = false then
      4 * (4 + r.attr.toNat % 4) + coverage r (column p)
    else background

/-- Whether the dot sets `sprite0_hit` (the last sentence of rule R367). -/
def meetsSprite0 (p : Ppu) : Bool :=
  match shownSprite p with
  | none => false
  | some r => decide (backgroundValue p ≠ 0 ∧ r.isZero = true ∧ column p ≠ 255)

end Sys2Proof.Machine
end

