-- ==== Sys2Proof/Machine/Session.lean ====
section
/-! DEFINITION. A session: the program image and its loader (52_cartridge_sync rules R410 to R412), session creation and
CPU reset (R423; 70_reset_and_hazards R480), and the host's side of the machine (R420, R421, R424). -/

namespace Sys2Proof.Machine

/-! ## The program image -/

/-- Why an image is refused (rule R411). The spec names one condition, LoadError; which of several reasons that hold
is reported is the model's choice (log 14). -/
inductive LoadError where
  /-- shorter than the 16-byte header -/
  | shortHeader
  /-- bytes 0 to 3 are not 0x4E 0x45 0x53 0x1A -/
  | badConstant
  /-- `n_prg` is 0 -/
  | noProgram
  /-- the mapper identifier is not 0 or 2 -/
  | unknownMapper
  /-- mapper 0 with more than two program units -/
  | tooMuchProgram
  /-- more than one graphics unit -/
  | tooMuchGraphics
  /-- flag 6 bit 3 -/
  | fourScreen
  /-- shorter than header, trainer, program and graphics data -/
  | shortImage
  deriving DecidableEq, Repr

/-- The fields of the header (the table of rule R410). -/
structure Header where
  constant : List Byte
  nPrg : Nat
  nChr : Nat
  flags6 : Byte
  flags7 : Byte
  deriving DecidableEq, Repr

/-- The header of an image; bytes that are missing read as zero (`parseImage` refuses such an image). -/
def header (image : List Byte) : Header :=
  { constant := image.take 4
    nPrg := (image.getD 4 0).toNat, nChr := (image.getD 5 0).toNat
    flags6 := image.getD 6 0, flags7 := image.getD 7 0 }

/-- `mapper = (byte7 & 0xF0) | (byte6 >> 4)`. -/
def Header.mapperId (h : Header) : Byte := (h.flags7 &&& 0xF0) ||| (h.flags6 >>> 4)

/-- The offset of the program data: header, then the trainer if there is one. -/
def Header.prgOffset (h : Header) : Nat := if h.flags6.getLsbD 2 then 16 + 512 else 16

/-- The offset of the graphics data. -/
def Header.chrOffset (h : Header) : Nat := h.prgOffset + h.nPrg * prgUnit

/-- The number of bytes of graphics data of one unit (rule R400). -/
def chrUnit : Nat := 8192

/-- The mapper of an identifier (rule R402). -/
def mapperOf (id : Byte) : Option Mapper :=
  if id = 0 then some .fixed else if id = 2 then some .banked else none

/-- `len` bytes of an image from offset `start` on. -/
def slice (start len : Nat) (image : List Byte) : List Byte := (image.drop start).take len

/-- Parsing an image (rules R410, R411, R412): the cartridge with `bank` = 0, or the reason it is refused. -/
def parseImage (image : List Byte) : Except LoadError Cartridge :=
  let h := header image
  if image.length < 16 then .error .shortHeader
  else if h.constant ≠ [0x4E, 0x45, 0x53, 0x1A] then .error .badConstant
  else if h.nPrg = 0 then .error .noProgram
  else
    match mapperOf h.mapperId with
    | none => .error .unknownMapper
    | some m =>
      if m = .fixed ∧ 2 < h.nPrg then .error .tooMuchProgram
      else if 1 < h.nChr then .error .tooMuchGraphics
      else if h.flags6.getLsbD 3 then .error .fourScreen
      else if image.length < h.chrOffset + h.nChr * chrUnit then .error .shortImage
      else
        .ok
          { prg := memoryOfBytes 0 (slice h.prgOffset (h.nPrg * prgUnit) image)
            nPrg := h.nPrg
            chr := memoryOfBytes 0 (slice h.chrOffset (h.nChr * chrUnit) image)
            chrIsRam := h.nChr == 0
            mapper := m
            mirroring := if h.flags6.getLsbD 0 then .vertical else .horizontal
            bank := 0 }

/-! ## Session creation -/

/-- The machine around a cartridge before the CPU's reset (rule R423 step 2). -/
def platform (params : Params) (c : Cartridge) : State := { State.reset with params := params, cart := c }

/-- CPU reset (70_reset_and_hazards rule R480): the registers' values, and `PC` from the reset vector. -/
def resetCpu (s : State) : State :=
  let r := memRead16 vecReset s
  { r.st with cpu := Cpu.reset r.val }

/-- Session creation (rule R423). -/
def createSession (params : Params) (image : List Byte) : Except LoadError State :=
  match parseImage image with
  | .error e => .error e
  | .ok c => .ok (resetCpu (platform params c))

/-! ## The host's side -/

/-- The controller snapshots the host supplies before a frame (rules R421, R306). -/
def supplyButtons (b1 b2 : Byte) (s : State) : State := { s with bus := { s.bus with buttons1 := b1, buttons2 := b2 } }

/-- What `run_until_frame` returns (rules R420, R424), or that the fuel ended first. -/
inductive Returned where
  /-- a completed frame, by value -/
  | frame (buffer : Store 6)
  /-- the fault report: cause, `PC`, cycle count -/
  | fault (cause : Option HaltCause) (pc : Word) (cycles : Nat)
  /-- more than the allowed number of steps (the model's own bound, log 15) -/
  | outOfFuel
  deriving DecidableEq, Repr

/-- `run_until_frame()` (rule R420) with at most `fuel` iterations: what it returns, and the machine after it. -/
def runUntilFrame : Nat → State → Returned × State
  | 0, s => (.outOfFuel, s)
  | fuel + 1, s =>
    match step s with
    | .next t =>
      if t.cpu.halted then (.fault t.cpu.haltCause t.cpu.pc t.cpu.cycles, t)
      else if t.framesReturned ≠ s.framesReturned then (.frame t.frameOut, t)
      else runUntilFrame fuel t
    | .fault _ => (.outOfFuel, s)
    | .refused _ => (.outOfFuel, s)

end Sys2Proof.Machine
end

