-- ==== Sys2Proof/Safety.lean ====
section
/-! DEFINITION. What counts as a well-kept state, and the hypotheses the claims use. -/

namespace Sys2Proof.Machine

/-! ## The invariant -/

/-- A memory in canonical form with every index below `size`. -/
def Store.within {w : Nat} (size : Nat) (m : Store w) : Prop := Store.wf m = true ∧ ∀ k v, (k, v) ∈ m → k < size

/-- The PPU's ranges (51_ppu rule R330). -/
structure Ppu.Inv (p : Ppu) : Prop where
  vram : Store.within 2048 p.vram
  palette : Store.within 32 p.palette
  oam : Store.within 256 p.oam
  frame : Store.within 61440 p.frame
  scanline : p.scanline < linesPerFrame
  cycle : p.cycle < dotsPerLine
  lineSprites : p.lineSprites.length ≤ 8
  nextSprites : p.nextSprites.length ≤ 8

/-- The cartridge's ranges (52_cartridge_sync rules R400, R411). -/
structure Cartridge.Inv (c : Cartridge) : Prop where
  units : 1 ≤ c.nPrg
  fixedUnits : c.mapper = .fixed → c.nPrg ≤ 2
  prg : Store.within (c.nPrg * 16384) c.prg
  chr : Store.within 8192 c.chr

/-- What every reachable state keeps: canonical memories of the stated sizes, the ranges of the PPU's counters and
lists, `B` = 0 (10_state rule R15), and a cause exactly when halted (R22). -/
structure State.Inv (s : State) : Prop where
  ram : Store.within 2048 s.bus.ram
  ppu : s.ppu.Inv
  cart : s.cart.Inv
  frameOut : Store.within 61440 s.frameOut
  breakFlag : s.cpu.p.b = false
  cause : s.cpu.halted = s.cpu.haltCause.isSome

/-! ## Hypotheses -/

/-- The step runs an instruction: not halted, no NMI, no unmasked IRQ (60_exceptions rule R440). -/
def Running (s : State) : Prop :=
  s.cpu.halted = false ∧ s.cpu.nmiPending = false ∧ s.ppu.nmiRequest = false ∧ (s.irqLine && !s.cpu.p.i) = false

/-- The fetch of `i` at `PC` leaves `t` (30_encoding rule R73): as many byte reads as `i` is long, the opcode byte
alone where it raises HALT, each followed by an increment of `PC`. The reads may be of any address, devices
included. -/
def Fetches (s : State) (i : Instr) (t : State) : Prop :=
  let r0 := busRead s.cpu.pc s
  let r1 := busRead (s.cpu.pc + 1) r0.st
  let r2 := busRead (s.cpu.pc + 2) r1.st
  (decode [r0.val] = .ok (i, []) ∧ t = skip 1 r0.st) ∨
  (r0.val ∉ haltOpcodes ∧ decode [r0.val, r1.val] = .ok (i, []) ∧ t = skip 2 r1.st) ∨
  (r0.val ∉ haltOpcodes ∧ decode [r0.val, r1.val, r2.val] = .ok (i, []) ∧ t = skip 3 r2.st)

/-- One row of a rule's encoding table with the rule's operation: the bytes, that they decode to `i` whatever follows
them, and what running `i` answers in every state. -/
def Means (bytes : List Byte) (i : Instr) (answer : State → Out) : Prop :=
  encode i = bytes ∧ (∀ rest, decode (bytes ++ rest) = .ok (i, rest)) ∧ ∀ s, exec i s = answer s

/-- What no step changes: the session's parameters and the cartridge but for `bank` and graphics RAM
(10_state rule R25, 52_cartridge_sync rules R400, R412), the snapshots (50_bus rule R306) and the IRQ input. -/
structure SameSession (s t : State) : Prop where
  params : t.params = s.params
  prg : t.cart.prg = s.cart.prg
  nPrg : t.cart.nPrg = s.cart.nPrg
  mapper : t.cart.mapper = s.cart.mapper
  mirroring : t.cart.mirroring = s.cart.mirroring
  chrIsRam : t.cart.chrIsRam = s.cart.chrIsRam
  rom : s.cart.chrIsRam = false → t.cart.chr = s.cart.chr
  buttons1 : t.bus.buttons1 = s.bus.buttons1
  buttons2 : t.bus.buttons2 = s.bus.buttons2
  irqLine : t.irqLine = s.irqLine

end Sys2Proof.Machine
end

