-- ==== Sys2Proof/Certificates/Slice0/Obligations.lean ====
section
/-! DEFINITION. The statements for the provers. `Means` (Safety.lean) is one row of a rule's encoding table with the
rule's operation; `reads`, `writes`, `modifies`, `touchesCpu` (Machine/View.lean) say what an access class leaves, and
Machine/Effects.lean what the rules do to the registers. -/

open Sys2Proof Sys2Proof.Machine

/-- One instruction of each family, its bytes written out from the matrix of 30_encoding: A9 42 is LDA #$42, 91 10 is
STA ($10),Y, 9A is TXS, 48 is PHA, 7D 34 12 is ADC $1234,X, 2C 00 20 is BIT $2000, 76 05 is ROR $05,X, 6C FF 02 is
JMP ($02FF), D0 FE is BNE with displacement FE, 00 is BRK, B7 10 is LAX $10,Y, 2B 0F is ANC #$0F (the second
encoding), 02 is JAM, EB 01 is SBC #$01 (the undocumented duplicate). (30_encoding.md R70, 30_encoding.md R74,
30_encoding.md R76) -/
def Obligations.SampleBytesDecodeAsTheTableSays : Prop :=
  decode [0xA9, 0x42] = .ok (.ldaImm 0x42, []) ∧ decode [0x91, 0x10] = .ok (.staIzy 0x10, []) ∧
  decode [0x9A] = .ok (.txsImp, []) ∧ decode [0x48] = .ok (.phaImp, []) ∧
  decode [0x7D, 0x34, 0x12] = .ok (.adcAbx 0x1234, []) ∧ decode [0x2C, 0x00, 0x20] = .ok (.bitAbs 0x2000, []) ∧
  decode [0x76, 0x05] = .ok (.rorZpx 0x05, []) ∧ decode [0x6C, 0xFF, 0x02] = .ok (.jmpInd 0x02FF, []) ∧
  decode [0xD0, 0xFE] = .ok (.bneRel 0xFE, []) ∧ decode [0x00] = .ok (.brkImp, []) ∧
  decode [0xB7, 0x10] = .ok (.laxZpy 0x10, []) ∧ decode [0x2B, 0x0F] = .ok (.ancImm2B 0x0F, []) ∧
  decode [0x02] = .ok (.jamImp02, []) ∧ decode [0xEB, 0x01] = .ok (.sbcImmEB 0x01, [])

/-- For each of the 256 instructions with every operand value, and any bytes after it: decode (encode i ++ rest) is i
and exactly rest. No bit of an encoding is dropped and the length is a function of the opcode alone. (30_encoding.md
R70, 30_encoding.md R71, 30_encoding.md R74, 30_encoding.md R76, 20_memory.md R42) -/
def Obligations.DecodeOfEncodeIsTheInstruction : Prop :=
  ∀ (i : Instr) (rest : List Byte), i.wellFormed = true → decode (encode i ++ rest) = .ok (i, rest)

/-- Any byte followed by two more decodes to an instruction with that opcode byte, of one to three bytes; and whenever a
byte string decodes to i with a rest, it is encode i followed by that rest. So every value of byte 0 is assigned,
the encoding determines the instruction and the instruction its bytes. (30_encoding.md R70, 30_encoding.md R71,
30_encoding.md R75) -/
def Obligations.DecodeIsTotalAndOneToOne : Prop :=
  (∀ (op b1 b2 : Byte) (rest : List Byte), ∃ i r, decode (op :: b1 :: b2 :: rest) = .ok (i, r) ∧ i.opcode = op ∧
    1 ≤ i.length ∧ i.length ≤ 3) ∧
  (∀ (bytes rest : List Byte) (i : Instr), decode bytes = .ok (i, rest) → bytes = encode i ++ rest)

/-- For every state that is not halted and has no interrupt to take: if the byte reads at PC give the bytes of i and
leave t (PC past them; the reads may be of devices, with their side effects), then step is exec i at t followed by
what the Synchronizer adds: three dots for each cycle and the delivery of a finished frame. An opcode that raises
HALT is fetched as one byte (HaltLeavesTheStateUntouched). (30_encoding.md R72, 30_encoding.md R73,
52_cartridge_sync.md R420) -/
def Obligations.StepRunsTheFetchedInstruction : Prop :=
  ∀ (s t : State) (i : Instr), Running s → Fetches s i t → step s = finish s (exec i t)

/-- For every running state whose bytes at PC, read from RAM or mapped program data (wrapping at 0xFFFF), are the
encoding of an instruction that does not raise HALT by opcode: step is exec i at the same state with PC advanced by
the length, then the dots. The bytes are those in memory at that moment, so a store is seen by the very next fetch.
(30_encoding.md R72, 30_encoding.md R73, 10_state.md R12, 20_memory.md R55) -/
def Obligations.StepRunsTheInstructionInMemory : Prop :=
  ∀ (s : State) (i : Instr), Running s → i.opcode ∉ haltOpcodes → BytesAt s.cpu.pc (encode i) s →
    step s = finish s (exec i (skip i.length s))

/-- In every state with halted set: the CPU step with any NMI request and any IRQ level answers the same state (the
request is not latched, nothing is read, the cost is 0), and the machine step answers the same state. The second
part is the model's reading of R424 (log 5). (60_exceptions.md R442, 52_cartridge_sync.md R424) -/
def Obligations.HaltedMachineNeverChanges : Prop :=
  ∀ s : State, s.cpu.halted = true →
    (∀ nmiRequest irqLine : Bool, cpuStep nmiRequest irqLine s = .next s) ∧ step s = .next s

/-- For every running state: let r be the one read of the opcode byte at PC. If its value is one of the 19 HALT_OPCODES,
step answers the state that read left with halted set and cause IllegalOpcode(PC, opcode); if it is 0x00 and
BRK_MODE is halt, the same with cause Break(PC). Registers, flags, PC, S, cycles, nmi_pending, memory and all else
are as before the step (but for the side effect of that read), no vector is read, and no dot runs. (R441) -/
def Obligations.HaltLeavesTheStateUntouched : Prop :=
  ∀ s : State, Running s →
    let r := busRead s.cpu.pc s
    (r.val ∈ ([0x02, 0x12, 0x22, 0x32, 0x42, 0x52, 0x62, 0x72, 0x92, 0xB2, 0xD2, 0xF2, 0x8B, 0xAB, 0x93, 0x9F, 0x9C, 0x9E,
        0x9B] : List Byte) →
      step s = .next { r.st with cpu := stopped s.cpu.pc (.illegalOpcode s.cpu.pc r.val) s.cpu }) ∧
    (r.val = 0x00 → s.params.brkMode = .halt →
      step s = .next { r.st with cpu := stopped s.cpu.pc (.brk s.cpu.pc) s.cpu })

/-- For each of the three vectors, either b, and every state in which the vector holds the word target (on this platform
its bytes are program data, so it always holds one): the entry stores the high byte of PC at 0x0100+S, the low byte
at S-1, pack(P, b) with I as it was at S-2 (each modulo 256), leaves S decreased by 3, sets I, and sets PC to
target; no other register, flag (D and B included), memory byte or device state changes. (R449) -/
def Obligations.InterruptEntryPushesAndVectors : Prop :=
  ∀ (s : State) (vec target : Word) (b : Bool), vec ∈ [vecNmi, vecReset, vecIrq] → VectorHolds vec target s →
    interruptEntry vec b s = entryTo target b s

/-- For every state that is not halted with nmi_pending set or nmi_request raised, and any vector contents: step clears
the request and the latch, performs the interrupt entry through 0xFFFA with bit 4 clear, adds 7 cycles and runs 21
dots; no instruction is fetched, and neither I nor irq_line matters. (R447) -/
def Obligations.NmiIsTakenBeforeAnythingElse : Prop :=
  ∀ (s : State) (target : Word), s.cpu.halted = false → (s.cpu.nmiPending = true ∨ s.ppu.nmiRequest = true) →
    VectorHolds 0xFFFA target s →
    let s0 := { s with
      cpu := { s.cpu with nmiPending := false }
      ppu := { s.ppu with nmiRequest := false } }
    let t := entryTo target false s0
    step s = .next (deliverFrame (runDots 21 { t with cpu := spent 7 t.cpu }))

/-- For every state that is not halted, with no NMI pending or requested and irq_line true: if I is clear, step performs
the interrupt entry through 0xFFFE with bit 4 clear, adds 7 cycles and runs 21 dots; if I is set, step is the same
as with the line low: what it answers differs only in the recorded line. The line as a field of State that no step
changes is the model's form (log 7): R21 calls it an input that is not stored, and R420 passes false on this
platform. (60_exceptions.md R448, 60_exceptions.md R445, 60_exceptions.md R446, 60_exceptions.md R449, 10_state.md
R21, 52_cartridge_sync.md R420) -/
def Obligations.IrqIsTakenWhenUnmasked : Prop :=
  ∀ (s : State) (target : Word), s.cpu.halted = false → s.cpu.nmiPending = false → s.ppu.nmiRequest = false →
    s.irqLine = true →
    (s.cpu.p.i = false → VectorHolds 0xFFFE target s →
      let t := entryTo target false s
      step s = .next (deliverFrame (runDots 21 { t with cpu := spent 7 t.cpu }))) ∧
    (s.cpu.p.i = true → ∀ o, step { s with irqLine := false } = .next o → step s = .next { o with irqLine := true })

/-- For every state with canonical RAM and any vector: the CPU after an interrupt entry and then the state part of RTI
is the CPU as it was before the entry (PC, all flags, S, A, X, Y, cycles). The three stack bytes do not collide even
where S wraps inside page 1. (60_exceptions.md R449, 60_exceptions.md R451, 46_system_flags.md R220, 10_state.md
R18) -/
def Obligations.RtiResumesWhereTheInterruptCame : Prop :=
  ∀ (s : State) (vec target : Word) (b : Bool), Store.wf s.bus.ram = true → vec ∈ [vecNmi, vecIrq] →
    VectorHolds vec target s → (returnFromInterrupt (interruptEntry vec b s)).cpu = s.cpu

/-- For every state: push v changes exactly the RAM byte at 0x0100+S to v and S to S-1 modulo 256; pull gives the RAM
byte at 0x0100+(S+1 modulo 256) and changes exactly S; neither stops. With canonical RAM, a pull right after a push
gives the pushed byte and restores S. (R46, R47) -/
def Obligations.StackWrapsInsidePageOne : Prop :=
  (∀ (s : State) (v : Byte), push v s = { s with
      cpu := { s.cpu with s := BitVec.ofInt 8 ((s.cpu.s.toNat : Int) - 1) }
      bus := { s.bus with ram := writeCell s.bus.ram (0x100 + s.cpu.s.toNat) v } }) ∧
  (∀ s : State, pull s =
    { val := readCell s.bus.ram (0x100 + (s.cpu.s.toNat + 1) % 256)
      st := { s with cpu := { s.cpu with s := BitVec.ofNat 8 (s.cpu.s.toNat + 1) } } }) ∧
  (∀ (s : State) (v : Byte), Store.wf s.bus.ram = true →
    (pull (push v s)).val = v ∧ (pull (push v s)).st.cpu = s.cpu)

/-- The status byte of rules R17 and R18, then the four stack instructions, one row each. (R17, R18, R140, R141, R142,
R143) -/
def Obligations.StatusByteAndStackInstructions : Prop :=
  (∀ (p : Flags) (b : Bool), (pack p b).toNat = packed p b) ∧
  (∀ (v : Byte) (p : Flags), unpack v p = unpacked v p) ∧
  (∀ (p : Flags) (b : Bool), unpack (pack p b) p = p) ∧
  Means [0x48] .phaImp (fun s => .next { s with
    cpu := spent 3 { s.cpu with s := s.cpu.s - 1 }
    bus := { s.bus with ram := stackStore s.cpu.s s.cpu.a s.bus.ram } }) ∧
  Means [0x08] .phpImp (fun s => .next { s with
    cpu := spent 3 { s.cpu with s := s.cpu.s - 1 }
    bus := { s.bus with ram := stackStore s.cpu.s (BitVec.ofNat 8 (packed s.cpu.p true)) s.bus.ram } }) ∧
  Means [0x68] .plaImp (fun s =>
    touchesCpu 4 (fun c => gotA (stackByte (c.s + 1) s) { c with s := c.s + 1 }) s) ∧
  Means [0x28] .plpImp (fun s =>
    touchesCpu 4 (fun c => { c with s := c.s + 1, p := unpacked (stackByte (c.s + 1) s) c.p }) s)

/-- The operand goes to the register, Z and N are set from it; one more cycle when an indexed read crosses a page. Every
form, one row each. (R120, R121, R122) -/
def Obligations.LoadInstructions : Prop :=
  ∀ (b : Byte) (n : Word),
    Means [0xA1, b] (.ldaIzx b) (reads 6 false (.mem (.izx b)) gotA) ∧
    Means [0xA5, b] (.ldaZp b) (reads 3 false (.mem (.zp b)) gotA) ∧
    Means [0xA9, b] (.ldaImm b) (reads 2 false (.imm b) gotA) ∧
    Means [0xAD, loByte n, hiByte n] (.ldaAbs n) (reads 4 false (.mem (.abs n)) gotA) ∧
    Means [0xB1, b] (.ldaIzy b) (reads 5 true (.mem (.izy b)) gotA) ∧
    Means [0xB5, b] (.ldaZpx b) (reads 4 false (.mem (.zpx b)) gotA) ∧
    Means [0xB9, loByte n, hiByte n] (.ldaAby n) (reads 4 true (.mem (.aby n)) gotA) ∧
    Means [0xBD, loByte n, hiByte n] (.ldaAbx n) (reads 4 true (.mem (.abx n)) gotA) ∧
    Means [0xA2, b] (.ldxImm b) (reads 2 false (.imm b) gotX) ∧
    Means [0xA6, b] (.ldxZp b) (reads 3 false (.mem (.zp b)) gotX) ∧
    Means [0xAE, loByte n, hiByte n] (.ldxAbs n) (reads 4 false (.mem (.abs n)) gotX) ∧
    Means [0xB6, b] (.ldxZpy b) (reads 4 false (.mem (.zpy b)) gotX) ∧
    Means [0xBE, loByte n, hiByte n] (.ldxAby n) (reads 4 true (.mem (.aby n)) gotX) ∧
    Means [0xA0, b] (.ldyImm b) (reads 2 false (.imm b) gotY) ∧
    Means [0xA4, b] (.ldyZp b) (reads 3 false (.mem (.zp b)) gotY) ∧
    Means [0xAC, loByte n, hiByte n] (.ldyAbs n) (reads 4 false (.mem (.abs n)) gotY) ∧
    Means [0xB4, b] (.ldyZpx b) (reads 4 false (.mem (.zpx b)) gotY) ∧
    Means [0xBC, loByte n, hiByte n] (.ldyAbx n) (reads 4 true (.mem (.abx n)) gotY)

/-- The register is written at the effective address of the state before the instruction; no register and no flag
changes; no page-cross cycle. Every form, one row each. (R123, R124, R125) -/
def Obligations.StoreInstructions : Prop :=
  ∀ (b : Byte) (n : Word),
    Means [0x81, b] (.staIzx b) (fun s => writes 6 (.izx b) s.cpu.a s) ∧
    Means [0x85, b] (.staZp b) (fun s => writes 3 (.zp b) s.cpu.a s) ∧
    Means [0x8D, loByte n, hiByte n] (.staAbs n) (fun s => writes 4 (.abs n) s.cpu.a s) ∧
    Means [0x91, b] (.staIzy b) (fun s => writes 6 (.izy b) s.cpu.a s) ∧
    Means [0x95, b] (.staZpx b) (fun s => writes 4 (.zpx b) s.cpu.a s) ∧
    Means [0x99, loByte n, hiByte n] (.staAby n) (fun s => writes 5 (.aby n) s.cpu.a s) ∧
    Means [0x9D, loByte n, hiByte n] (.staAbx n) (fun s => writes 5 (.abx n) s.cpu.a s) ∧
    Means [0x86, b] (.stxZp b) (fun s => writes 3 (.zp b) s.cpu.x s) ∧
    Means [0x8E, loByte n, hiByte n] (.stxAbs n) (fun s => writes 4 (.abs n) s.cpu.x s) ∧
    Means [0x96, b] (.stxZpy b) (fun s => writes 4 (.zpy b) s.cpu.x s) ∧
    Means [0x84, b] (.styZp b) (fun s => writes 3 (.zp b) s.cpu.y s) ∧
    Means [0x8C, loByte n, hiByte n] (.styAbs n) (fun s => writes 4 (.abs n) s.cpu.y s) ∧
    Means [0x94, b] (.styZpx b) (fun s => writes 4 (.zpx b) s.cpu.y s)

/-- The source register goes to the destination, with Z and N from it except for TXS, which writes no flag. Every form,
one row each. (R126, R127, R128, R129, R130, R131) -/
def Obligations.TransferInstructions : Prop :=
      Means [0xAA] .taxImp (touchesCpu 2 (fun c => gotX c.a c)) ∧
    Means [0xA8] .tayImp (touchesCpu 2 (fun c => gotY c.a c)) ∧
    Means [0x8A] .txaImp (touchesCpu 2 (fun c => gotA c.x c)) ∧
    Means [0x98] .tyaImp (touchesCpu 2 (fun c => gotA c.y c)) ∧
    Means [0xBA] .tsxImp (touchesCpu 2 (fun c => gotX c.s c)) ∧
    Means [0x9A] .txsImp (touchesCpu 2 (fun c => { c with s := c.x }))

/-- A takes the bitwise result with Z and N from it; BIT writes only Z from A and m, N and V from bits 7 and 6 of m.
Every form, one row each. (R150, R151, R152, R153) -/
def Obligations.LogicInstructions : Prop :=
  ∀ (b : Byte) (n : Word),
    Means [0x21, b] (.andIzx b) (reads 6 false (.mem (.izx b)) (fun m c => gotA (c.a &&& m) c)) ∧
    Means [0x25, b] (.andZp b) (reads 3 false (.mem (.zp b)) (fun m c => gotA (c.a &&& m) c)) ∧
    Means [0x29, b] (.andImm b) (reads 2 false (.imm b) (fun m c => gotA (c.a &&& m) c)) ∧
    Means [0x2D, loByte n, hiByte n] (.andAbs n) (reads 4 false (.mem (.abs n)) (fun m c => gotA (c.a &&& m) c)) ∧
    Means [0x31, b] (.andIzy b) (reads 5 true (.mem (.izy b)) (fun m c => gotA (c.a &&& m) c)) ∧
    Means [0x35, b] (.andZpx b) (reads 4 false (.mem (.zpx b)) (fun m c => gotA (c.a &&& m) c)) ∧
    Means [0x39, loByte n, hiByte n] (.andAby n) (reads 4 true (.mem (.aby n)) (fun m c => gotA (c.a &&& m) c)) ∧
    Means [0x3D, loByte n, hiByte n] (.andAbx n) (reads 4 true (.mem (.abx n)) (fun m c => gotA (c.a &&& m) c)) ∧
    Means [0x01, b] (.oraIzx b) (reads 6 false (.mem (.izx b)) (fun m c => gotA (c.a ||| m) c)) ∧
    Means [0x05, b] (.oraZp b) (reads 3 false (.mem (.zp b)) (fun m c => gotA (c.a ||| m) c)) ∧
    Means [0x09, b] (.oraImm b) (reads 2 false (.imm b) (fun m c => gotA (c.a ||| m) c)) ∧
    Means [0x0D, loByte n, hiByte n] (.oraAbs n) (reads 4 false (.mem (.abs n)) (fun m c => gotA (c.a ||| m) c)) ∧
    Means [0x11, b] (.oraIzy b) (reads 5 true (.mem (.izy b)) (fun m c => gotA (c.a ||| m) c)) ∧
    Means [0x15, b] (.oraZpx b) (reads 4 false (.mem (.zpx b)) (fun m c => gotA (c.a ||| m) c)) ∧
    Means [0x19, loByte n, hiByte n] (.oraAby n) (reads 4 true (.mem (.aby n)) (fun m c => gotA (c.a ||| m) c)) ∧
    Means [0x1D, loByte n, hiByte n] (.oraAbx n) (reads 4 true (.mem (.abx n)) (fun m c => gotA (c.a ||| m) c)) ∧
    Means [0x41, b] (.eorIzx b) (reads 6 false (.mem (.izx b)) (fun m c => gotA (c.a ^^^ m) c)) ∧
    Means [0x45, b] (.eorZp b) (reads 3 false (.mem (.zp b)) (fun m c => gotA (c.a ^^^ m) c)) ∧
    Means [0x49, b] (.eorImm b) (reads 2 false (.imm b) (fun m c => gotA (c.a ^^^ m) c)) ∧
    Means [0x4D, loByte n, hiByte n] (.eorAbs n) (reads 4 false (.mem (.abs n)) (fun m c => gotA (c.a ^^^ m) c)) ∧
    Means [0x51, b] (.eorIzy b) (reads 5 true (.mem (.izy b)) (fun m c => gotA (c.a ^^^ m) c)) ∧
    Means [0x55, b] (.eorZpx b) (reads 4 false (.mem (.zpx b)) (fun m c => gotA (c.a ^^^ m) c)) ∧
    Means [0x59, loByte n, hiByte n] (.eorAby n) (reads 4 true (.mem (.aby n)) (fun m c => gotA (c.a ^^^ m) c)) ∧
    Means [0x5D, loByte n, hiByte n] (.eorAbx n) (reads 4 true (.mem (.abx n)) (fun m c => gotA (c.a ^^^ m) c)) ∧
    Means [0x24, b] (.bitZp b) (reads 3 false (.mem (.zp b)) bitTested) ∧
    Means [0x2C, loByte n, hiByte n] (.bitAbs n) (reads 4 false (.mem (.abs n)) bitTested)

/-- C is no borrow, Z equality, N bit 7 of the difference; V and D play no part and no register changes. Every form, one
row each. (R154, R155, R156, R161) -/
def Obligations.CompareInstructions : Prop :=
  ∀ (b : Byte) (n : Word),
    Means [0xC1, b] (.cmpIzx b) (reads 6 false (.mem (.izx b)) (fun m c => compared c.a m c)) ∧
    Means [0xC5, b] (.cmpZp b) (reads 3 false (.mem (.zp b)) (fun m c => compared c.a m c)) ∧
    Means [0xC9, b] (.cmpImm b) (reads 2 false (.imm b) (fun m c => compared c.a m c)) ∧
    Means [0xCD, loByte n, hiByte n] (.cmpAbs n) (reads 4 false (.mem (.abs n)) (fun m c => compared c.a m c)) ∧
    Means [0xD1, b] (.cmpIzy b) (reads 5 true (.mem (.izy b)) (fun m c => compared c.a m c)) ∧
    Means [0xD5, b] (.cmpZpx b) (reads 4 false (.mem (.zpx b)) (fun m c => compared c.a m c)) ∧
    Means [0xD9, loByte n, hiByte n] (.cmpAby n) (reads 4 true (.mem (.aby n)) (fun m c => compared c.a m c)) ∧
    Means [0xDD, loByte n, hiByte n] (.cmpAbx n) (reads 4 true (.mem (.abx n)) (fun m c => compared c.a m c)) ∧
    Means [0xE0, b] (.cpxImm b) (reads 2 false (.imm b) (fun m c => compared c.x m c)) ∧
    Means [0xE4, b] (.cpxZp b) (reads 3 false (.mem (.zp b)) (fun m c => compared c.x m c)) ∧
    Means [0xEC, loByte n, hiByte n] (.cpxAbs n) (reads 4 false (.mem (.abs n)) (fun m c => compared c.x m c)) ∧
    Means [0xC0, b] (.cpyImm b) (reads 2 false (.imm b) (fun m c => compared c.y m c)) ∧
    Means [0xC4, b] (.cpyZp b) (reads 3 false (.mem (.zp b)) (fun m c => compared c.y m c)) ∧
    Means [0xCC, loByte n, hiByte n] (.cpyAbs n) (reads 4 false (.mem (.abs n)) (fun m c => compared c.y m c))

/-- A takes A + m + C; in binary C is the carry out, V the sign rule, Z and N from the result; with D and
DECIMAL_ENABLED the decimal case, its N, V and Z as the rule gives them. Every form, one row each. (R157, R158) -/
def Obligations.AddInstruction : Prop :=
  ∀ (b : Byte) (n : Word),
    Means [0x61, b] (.adcIzx b) (fun s => reads 6 false (.mem (.izx b)) (added s.params) s) ∧
    Means [0x65, b] (.adcZp b) (fun s => reads 3 false (.mem (.zp b)) (added s.params) s) ∧
    Means [0x69, b] (.adcImm b) (fun s => reads 2 false (.imm b) (added s.params) s) ∧
    Means [0x6D, loByte n, hiByte n] (.adcAbs n) (fun s => reads 4 false (.mem (.abs n)) (added s.params) s) ∧
    Means [0x71, b] (.adcIzy b) (fun s => reads 5 true (.mem (.izy b)) (added s.params) s) ∧
    Means [0x75, b] (.adcZpx b) (fun s => reads 4 false (.mem (.zpx b)) (added s.params) s) ∧
    Means [0x79, loByte n, hiByte n] (.adcAby n) (fun s => reads 4 true (.mem (.aby n)) (added s.params) s) ∧
    Means [0x7D, loByte n, hiByte n] (.adcAbx n) (fun s => reads 4 true (.mem (.abx n)) (added s.params) s)

/-- A takes A - m - (1 - C); the flags always from the binary difference; with D and DECIMAL_ENABLED the accumulator
takes the decimal difference. Every form, one row each. (R159, R160, R243) -/
def Obligations.SubtractInstruction : Prop :=
  ∀ (b : Byte) (n : Word),
    Means [0xE1, b] (.sbcIzx b) (fun s => reads 6 false (.mem (.izx b)) (subtracted s.params) s) ∧
    Means [0xE5, b] (.sbcZp b) (fun s => reads 3 false (.mem (.zp b)) (subtracted s.params) s) ∧
    Means [0xE9, b] (.sbcImm b) (fun s => reads 2 false (.imm b) (subtracted s.params) s) ∧
    Means [0xEB, b] (.sbcImmEB b) (fun s => reads 2 false (.imm b) (subtracted s.params) s) ∧
    Means [0xED, loByte n, hiByte n] (.sbcAbs n) (fun s => reads 4 false (.mem (.abs n)) (subtracted s.params) s) ∧
    Means [0xF1, b] (.sbcIzy b) (fun s => reads 5 true (.mem (.izy b)) (subtracted s.params) s) ∧
    Means [0xF5, b] (.sbcZpx b) (fun s => reads 4 false (.mem (.zpx b)) (subtracted s.params) s) ∧
    Means [0xF9, loByte n, hiByte n] (.sbcAby n) (fun s => reads 4 true (.mem (.aby n)) (subtracted s.params) s) ∧
    Means [0xFD, loByte n, hiByte n] (.sbcAbx n) (fun s => reads 4 true (.mem (.abx n)) (subtracted s.params) s)

/-- For all bytes a, m whose nibbles are at most 9 and either carry, with D set: the sum's digits are (dec a + dec m +
C) modulo 100 and C is set exactly when that reaches 100; the difference's digits are (dec a - dec m - (1 - C))
modulo 100 and C is set exactly when no decimal borrow occurred. dec v is 10 times the high nibble plus the low.
(43_logic_arith.md R158, 43_logic_arith.md R160) -/
def Obligations.DecimalArithmeticIsDecimal : Prop :=
  let dec : Byte → Int := fun v => 10 * (v.toNat / 16 : Nat) + (v.toNat % 16 : Nat)
  let bcd : Byte → Prop := fun v => v.toNat / 16 ≤ 9 ∧ v.toNat % 16 ≤ 9
  ∀ (c : Cpu) (m : Byte), bcd c.a → bcd m → c.p.d = true →
    let sum := dec c.a + dec m + c.p.c.toNat
    let diff := dec c.a - dec m - (1 - c.p.c.toNat)
    bcd (addCore true m c).a ∧ dec (addCore true m c).a = sum % 100 ∧
    ((addCore true m c).p.c = true ↔ 100 ≤ sum) ∧
    bcd (subCore true m c).a ∧ dec (subCore true m c).a = diff % 100 ∧
    ((subCore true m c).p.c = true ↔ 0 ≤ diff)

/-- For every CPU state and every operand: with D clear (or DECIMAL_ENABLED false), V after the addition is set exactly
when the sum of the signed values and the carry is outside -128 to 127; in either mode, V after the subtraction is
set exactly when the signed difference less the borrow is. (10_state.md R13, 43_logic_arith.md R158,
43_logic_arith.md R160, 43_logic_arith.md R162) -/
def Obligations.OverflowIsSignedOverflow : Prop :=
  ∀ (dec : Bool) (c : Cpu) (m : Byte),
    let sum : Int := c.a.toInt + m.toInt + c.p.c.toNat
    let diff : Int := c.a.toInt - m.toInt - (1 - c.p.c.toNat)
    ((c.p.d && dec) = false → ((addCore dec m c).p.v = true ↔ sum < -128 ∨ 127 < sum)) ∧
    ((subCore dec m c).p.v = true ↔ diff < -128 ∨ 127 < diff)

/-- Add or subtract one modulo 256, Z and N from the result, C and V untouched; the memory forms read once and write
once at the same address. Every form, one row each. (R170, R171, R172, R173, R174, R175) -/
def Obligations.IncrementDecrementInstructions : Prop :=
  ∀ (b : Byte) (n : Word),
    Means [0xE6, b] (.incZp b)
      (modifies 5 (.zp b) (fun m => BitVec.ofNat 8 (m.toNat + 1)) (fun _ n c => { c with p := flagsNZ n c.p })) ∧
    Means [0xEE, loByte n, hiByte n] (.incAbs n)
      (modifies 6 (.abs n) (fun m => BitVec.ofNat 8 (m.toNat + 1)) (fun _ n c => { c with p := flagsNZ n c.p })) ∧
    Means [0xF6, b] (.incZpx b)
      (modifies 6 (.zpx b) (fun m => BitVec.ofNat 8 (m.toNat + 1)) (fun _ n c => { c with p := flagsNZ n c.p })) ∧
    Means [0xFE, loByte n, hiByte n] (.incAbx n)
      (modifies 7 (.abx n) (fun m => BitVec.ofNat 8 (m.toNat + 1)) (fun _ n c => { c with p := flagsNZ n c.p })) ∧
    Means [0xC6, b] (.decZp b)
      (modifies 5 (.zp b) (fun m => BitVec.ofInt 8 ((m.toNat : Int) - 1)) (fun _ n c => { c with p := flagsNZ n c.p })) ∧
    Means [0xCE, loByte n, hiByte n] (.decAbs n)
      (modifies 6 (.abs n) (fun m => BitVec.ofInt 8 ((m.toNat : Int) - 1)) (fun _ n c => { c with p := flagsNZ n c.p })) ∧
    Means [0xD6, b] (.decZpx b)
      (modifies 6 (.zpx b) (fun m => BitVec.ofInt 8 ((m.toNat : Int) - 1)) (fun _ n c => { c with p := flagsNZ n c.p })) ∧
    Means [0xDE, loByte n, hiByte n] (.decAbx n)
      (modifies 7 (.abx n) (fun m => BitVec.ofInt 8 ((m.toNat : Int) - 1)) (fun _ n c => { c with p := flagsNZ n c.p })) ∧
    Means [0xE8] .inxImp (touchesCpu 2 (fun c => gotX (BitVec.ofNat 8 (c.x.toNat + 1)) c)) ∧
    Means [0xC8] .inyImp (touchesCpu 2 (fun c => gotY (BitVec.ofNat 8 (c.y.toNat + 1)) c)) ∧
    Means [0xCA] .dexImp (touchesCpu 2 (fun c => gotX (BitVec.ofInt 8 ((c.x.toNat : Int) - 1)) c)) ∧
    Means [0x88] .deyImp (touchesCpu 2 (fun c => gotY (BitVec.ofInt 8 ((c.y.toNat : Int) - 1)) c))

/-- One bit left or right, 0 or the old carry shifted in, the bit shifted out to C, Z and N from the result. Every form,
one row each. (R176, R177, R178, R179) -/
def Obligations.ShiftInstructions : Prop :=
  ∀ (b : Byte) (n : Word),
    Means [0x06, b] (.aslZp b)
      (modifies 5 (.zp b) (leftWith false) (fun m n c => carry (topBit m) { c with p := flagsNZ n c.p })) ∧
    Means [0x0A] .aslAcc (touchesCpu 2 (fun c => carry (topBit c.a) (gotA (leftWith false c.a) c))) ∧
    Means [0x0E, loByte n, hiByte n] (.aslAbs n)
      (modifies 6 (.abs n) (leftWith false) (fun m n c => carry (topBit m) { c with p := flagsNZ n c.p })) ∧
    Means [0x16, b] (.aslZpx b)
      (modifies 6 (.zpx b) (leftWith false) (fun m n c => carry (topBit m) { c with p := flagsNZ n c.p })) ∧
    Means [0x1E, loByte n, hiByte n] (.aslAbx n)
      (modifies 7 (.abx n) (leftWith false) (fun m n c => carry (topBit m) { c with p := flagsNZ n c.p })) ∧
    Means [0x46, b] (.lsrZp b)
      (modifies 5 (.zp b) (rightWith false) (fun m n c => carry (lowBit m) { c with p := flagsNZ n c.p })) ∧
    Means [0x4A] .lsrAcc (touchesCpu 2 (fun c => carry (lowBit c.a) (gotA (rightWith false c.a) c))) ∧
    Means [0x4E, loByte n, hiByte n] (.lsrAbs n)
      (modifies 6 (.abs n) (rightWith false) (fun m n c => carry (lowBit m) { c with p := flagsNZ n c.p })) ∧
    Means [0x56, b] (.lsrZpx b)
      (modifies 6 (.zpx b) (rightWith false) (fun m n c => carry (lowBit m) { c with p := flagsNZ n c.p })) ∧
    Means [0x5E, loByte n, hiByte n] (.lsrAbx n)
      (modifies 7 (.abx n) (rightWith false) (fun m n c => carry (lowBit m) { c with p := flagsNZ n c.p })) ∧
    Means [0x26, b] (.rolZp b)
      (fun s => modifies 5 (.zp b) (leftWith s.cpu.p.c) (fun m n c => carry (topBit m) { c with p := flagsNZ n c.p }) s) ∧
    Means [0x2A] .rolAcc (touchesCpu 2 (fun c => carry (topBit c.a) (gotA (leftWith c.p.c c.a) c))) ∧
    Means [0x2E, loByte n, hiByte n] (.rolAbs n)
      (fun s => modifies 6 (.abs n) (leftWith s.cpu.p.c) (fun m n c => carry (topBit m) { c with p := flagsNZ n c.p }) s) ∧
    Means [0x36, b] (.rolZpx b)
      (fun s => modifies 6 (.zpx b) (leftWith s.cpu.p.c) (fun m n c => carry (topBit m) { c with p := flagsNZ n c.p }) s) ∧
    Means [0x3E, loByte n, hiByte n] (.rolAbx n)
      (fun s => modifies 7 (.abx n) (leftWith s.cpu.p.c) (fun m n c => carry (topBit m) { c with p := flagsNZ n c.p }) s) ∧
    Means [0x66, b] (.rorZp b)
      (fun s => modifies 5 (.zp b) (rightWith s.cpu.p.c) (fun m n c => carry (lowBit m) { c with p := flagsNZ n c.p }) s) ∧
    Means [0x6A] .rorAcc (touchesCpu 2 (fun c => carry (lowBit c.a) (gotA (rightWith c.p.c c.a) c))) ∧
    Means [0x6E, loByte n, hiByte n] (.rorAbs n)
      (fun s => modifies 6 (.abs n) (rightWith s.cpu.p.c) (fun m n c => carry (lowBit m) { c with p := flagsNZ n c.p }) s) ∧
    Means [0x76, b] (.rorZpx b)
      (fun s => modifies 6 (.zpx b) (rightWith s.cpu.p.c) (fun m n c => carry (lowBit m) { c with p := flagsNZ n c.p }) s) ∧
    Means [0x7E, loByte n, hiByte n] (.rorAbx n)
      (fun s => modifies 7 (.abx n) (rightWith s.cpu.p.c) (fun m n c => carry (lowBit m) { c with p := flagsNZ n c.p }) s)

/-- Jump, call and return, one row each. (R190, R191, R192) -/
def Obligations.JumpAndSubroutineInstructions : Prop :=
  ∀ n : Word,
    Means [0x4C, loByte n, hiByte n] (.jmpAbs n) (touchesCpu 3 (fun c => { c with pc := n })) ∧
    Means [0x6C, loByte n, hiByte n] (.jmpInd n) (fun s =>
      let lo := busRead n s
      let hi := busRead (mkWord (hiByte n) (BitVec.ofNat 8 (n.toNat % 256 + 1))) lo.st
      .next { hi.st with cpu := spent 5 { s.cpu with pc := mkWord hi.val lo.val } }) ∧
    Means [0x20, loByte n, hiByte n] (.jsrAbs n) (fun s => .next { s with
      cpu := spent 6 { s.cpu with s := s.cpu.s - 2, pc := n }
      bus := { s.bus with
        ram := stackStore (s.cpu.s - 1) (loByte (s.cpu.pc - 1))
          (stackStore s.cpu.s (hiByte (s.cpu.pc - 1)) s.bus.ram) } }) ∧
    Means [0x60] .rtsImp (fun s => touchesCpu 6 (fun c => { c with
      s := c.s + 2, pc := mkWord (stackByte (c.s + 2) s) (stackByte (c.s + 1) s) + 1 }) s)

/-- For every state with canonical RAM (PC being the address after the JSR) and any target: running JSR and then RTS,
with PC at the RTS moved past it or anywhere else, answers a state whose PC is the address after the JSR, whose S is
the one before it, and whose A, X, Y and flags are unchanged. (45_control.md R191, 45_control.md R192, 20_memory.md
R42) -/
def Obligations.RtsReturnsAfterJsr : Prop :=
  ∀ (s t : State) (n pc' : Word), Store.wf s.bus.ram = true → exec (.jsrAbs n) s = .next t →
    ∃ u, exec .rtsImp { t with cpu := { t.cpu with pc := pc' } } = .next u ∧ u.cpu.pc = s.cpu.pc ∧
      u.cpu.s = s.cpu.s ∧ u.cpu.a = s.cpu.a ∧ u.cpu.x = s.cpu.x ∧ u.cpu.y = s.cpu.y ∧ u.cpu.p = s.cpu.p

/-- Taken exactly when the flag condition holds: PC is the next instruction's address plus the signed displacement
modulo 65536; cost 2 not taken, 3 taken, 4 taken to another page than the next instruction's; nothing else changes.
Every form, one row each. (R193, R194, R195, R196, R197, R198, R199, R200, R201) -/
def Obligations.BranchInstructions : Prop :=
  ∀ (d : Byte),
    Means [0x90, d] (.bccRel d) (fun s => branches (!s.cpu.p.c) d s) ∧
    Means [0xB0, d] (.bcsRel d) (fun s => branches (s.cpu.p.c) d s) ∧
    Means [0xF0, d] (.beqRel d) (fun s => branches (s.cpu.p.z) d s) ∧
    Means [0xD0, d] (.bneRel d) (fun s => branches (!s.cpu.p.z) d s) ∧
    Means [0x30, d] (.bmiRel d) (fun s => branches (s.cpu.p.n) d s) ∧
    Means [0x10, d] (.bplRel d) (fun s => branches (!s.cpu.p.n) d s) ∧
    Means [0x50, d] (.bvcRel d) (fun s => branches (!s.cpu.p.v) d s) ∧
    Means [0x70, d] (.bvsRel d) (fun s => branches (s.cpu.p.v) d s)

/-- Each writes its one flag, NOP nothing; cost 2. Every form, one row each. (R210, R211, R212, R213, R214, R215, R216,
R217) -/
def Obligations.FlagAndNopInstructions : Prop :=
      Means [0x18] .clcImp (touchesCpu 2 (carry false)) ∧
    Means [0x38] .secImp (touchesCpu 2 (carry true)) ∧
    Means [0x58] .cliImp (touchesCpu 2 (fun c => { c with p := { c.p with i := false } })) ∧
    Means [0x78] .seiImp (touchesCpu 2 (fun c => { c with p := { c.p with i := true } })) ∧
    Means [0xD8] .cldImp (touchesCpu 2 (fun c => { c with p := { c.p with d := false } })) ∧
    Means [0xF8] .sedImp (touchesCpu 2 (fun c => { c with p := { c.p with d := true } })) ∧
    Means [0xB8] .clvImp (touchesCpu 2 (fun c => { c with p := { c.p with v := false } })) ∧
    Means [0xEA] .nopImp (touchesCpu 2 (fun c => c))

/-- 00 decodes to BRK. With BRK_MODE = halt it sets halted with cause Break of its own address, PC back at it, and
changes nothing else. With BRK_MODE = interrupt, for any contents of the vector at 0xFFFE: the byte after the opcode
is skipped unread, PC0+2 and the status with bit 4 set are pushed, I is set, PC is the vector's word, cost 7. RTI
takes the status, then PC low, then high, without adding 1, raises S by 3, cost 6. Constructors: brkImp, rtiImp.
(R218, R219, R220) -/
def Obligations.BreakAndReturnFromInterrupt : Prop :=
  encode .brkImp = [0x00] ∧ (∀ rest, decode (0x00 :: rest) = .ok (.brkImp, rest)) ∧
  (∀ s : State, s.params.brkMode = .halt →
    exec .brkImp s = .next { s with cpu := stopped (s.cpu.pc - 1) (.brk (s.cpu.pc - 1)) s.cpu }) ∧
  (∀ (s : State) (target : Word), s.params.brkMode = .interrupt → VectorHolds 0xFFFE target s →
    let t := entryTo target true (skip 1 s)
    exec .brkImp s = .next { t with cpu := spent 7 t.cpu }) ∧
  Means [0x40] .rtiImp (fun s => touchesCpu 6 (fun c => { c with
    s := c.s + 3
    p := unpacked (stackByte (c.s + 1) s) c.p
    pc := mkWord (stackByte (c.s + 3) s) (stackByte (c.s + 2) s) }) s)

/-- No register, flag or memory byte changes but PC and the cycle count; the memory forms make the one read of their
operand, with its side effect where a device answers, and the absolute,X forms pay the page-cross cycle. Every form,
one row each. (R230) -/
def Obligations.UndocumentedNops : Prop :=
  ∀ (b : Byte) (n : Word),
    Means [0x04, b] (.nopZp04 b) (reads 3 false (.mem (.zp b)) (fun _ c => c)) ∧
    Means [0x0C, loByte n, hiByte n] (.nopAbs n) (reads 4 false (.mem (.abs n)) (fun _ c => c)) ∧
    Means [0x14, b] (.nopZpx14 b) (reads 4 false (.mem (.zpx b)) (fun _ c => c)) ∧
    Means [0x1A] .nopImp1A (touchesCpu 2 (fun c => c)) ∧
    Means [0x1C, loByte n, hiByte n] (.nopAbx1C n) (reads 4 true (.mem (.abx n)) (fun _ c => c)) ∧
    Means [0x34, b] (.nopZpx34 b) (reads 4 false (.mem (.zpx b)) (fun _ c => c)) ∧
    Means [0x3A] .nopImp3A (touchesCpu 2 (fun c => c)) ∧
    Means [0x3C, loByte n, hiByte n] (.nopAbx3C n) (reads 4 true (.mem (.abx n)) (fun _ c => c)) ∧
    Means [0x44, b] (.nopZp44 b) (reads 3 false (.mem (.zp b)) (fun _ c => c)) ∧
    Means [0x54, b] (.nopZpx54 b) (reads 4 false (.mem (.zpx b)) (fun _ c => c)) ∧
    Means [0x5A] .nopImp5A (touchesCpu 2 (fun c => c)) ∧
    Means [0x5C, loByte n, hiByte n] (.nopAbx5C n) (reads 4 true (.mem (.abx n)) (fun _ c => c)) ∧
    Means [0x64, b] (.nopZp64 b) (reads 3 false (.mem (.zp b)) (fun _ c => c)) ∧
    Means [0x74, b] (.nopZpx74 b) (reads 4 false (.mem (.zpx b)) (fun _ c => c)) ∧
    Means [0x7A] .nopImp7A (touchesCpu 2 (fun c => c)) ∧
    Means [0x7C, loByte n, hiByte n] (.nopAbx7C n) (reads 4 true (.mem (.abx n)) (fun _ c => c)) ∧
    Means [0x80, b] (.nopImm80 b) (reads 2 false (.imm b) (fun _ c => c)) ∧
    Means [0x82, b] (.nopImm82 b) (reads 2 false (.imm b) (fun _ c => c)) ∧
    Means [0x89, b] (.nopImm89 b) (reads 2 false (.imm b) (fun _ c => c)) ∧
    Means [0xC2, b] (.nopImmC2 b) (reads 2 false (.imm b) (fun _ c => c)) ∧
    Means [0xD4, b] (.nopZpxD4 b) (reads 4 false (.mem (.zpx b)) (fun _ c => c)) ∧
    Means [0xDA] .nopImpDA (touchesCpu 2 (fun c => c)) ∧
    Means [0xDC, loByte n, hiByte n] (.nopAbxDC n) (reads 4 true (.mem (.abx n)) (fun _ c => c)) ∧
    Means [0xE2, b] (.nopImmE2 b) (reads 2 false (.imm b) (fun _ c => c)) ∧
    Means [0xF4, b] (.nopZpxF4 b) (reads 4 false (.mem (.zpx b)) (fun _ c => c)) ∧
    Means [0xFA] .nopImpFA (touchesCpu 2 (fun c => c)) ∧
    Means [0xFC, loByte n, hiByte n] (.nopAbxFC n) (reads 4 true (.mem (.abx n)) (fun _ c => c))

/-- LAX loads A and X with the operand; SAX stores A and X; LAS puts operand and S into A, X and S; DCP and ISC
decrement or increment the byte in memory, then compare it with A or subtract it from A. Every form, one row each.
(R231, R232, R233, R234, R244) -/
def Obligations.LaxSaxLasDcpIscInstructions : Prop :=
  ∀ (b : Byte) (n : Word),
    Means [0xA3, b] (.laxIzx b) (reads 6 false (.mem (.izx b)) (fun m c => { gotA m c with x := m })) ∧
    Means [0xA7, b] (.laxZp b) (reads 3 false (.mem (.zp b)) (fun m c => { gotA m c with x := m })) ∧
    Means [0xAF, loByte n, hiByte n] (.laxAbs n)
      (reads 4 false (.mem (.abs n)) (fun m c => { gotA m c with x := m })) ∧
    Means [0xB3, b] (.laxIzy b) (reads 5 true (.mem (.izy b)) (fun m c => { gotA m c with x := m })) ∧
    Means [0xB7, b] (.laxZpy b) (reads 4 false (.mem (.zpy b)) (fun m c => { gotA m c with x := m })) ∧
    Means [0xBF, loByte n, hiByte n] (.laxAby n)
      (reads 4 true (.mem (.aby n)) (fun m c => { gotA m c with x := m })) ∧
    Means [0x83, b] (.saxIzx b) (fun s => writes 6 (.izx b) (s.cpu.a &&& s.cpu.x) s) ∧
    Means [0x87, b] (.saxZp b) (fun s => writes 3 (.zp b) (s.cpu.a &&& s.cpu.x) s) ∧
    Means [0x8F, loByte n, hiByte n] (.saxAbs n) (fun s => writes 4 (.abs n) (s.cpu.a &&& s.cpu.x) s) ∧
    Means [0x97, b] (.saxZpy b) (fun s => writes 4 (.zpy b) (s.cpu.a &&& s.cpu.x) s) ∧
    Means [0xBB, loByte n, hiByte n] (.lasAby n)
      (reads 4 true (.mem (.aby n)) (fun m c => { gotA (m &&& c.s) c with x := m &&& c.s, s := m &&& c.s })) ∧
    Means [0xC3, b] (.dcpIzx b)
      (modifies 8 (.izx b) (fun m => BitVec.ofInt 8 ((m.toNat : Int) - 1)) (fun _ n c => compared c.a n c)) ∧
    Means [0xC7, b] (.dcpZp b)
      (modifies 5 (.zp b) (fun m => BitVec.ofInt 8 ((m.toNat : Int) - 1)) (fun _ n c => compared c.a n c)) ∧
    Means [0xCF, loByte n, hiByte n] (.dcpAbs n)
      (modifies 6 (.abs n) (fun m => BitVec.ofInt 8 ((m.toNat : Int) - 1)) (fun _ n c => compared c.a n c)) ∧
    Means [0xD3, b] (.dcpIzy b)
      (modifies 8 (.izy b) (fun m => BitVec.ofInt 8 ((m.toNat : Int) - 1)) (fun _ n c => compared c.a n c)) ∧
    Means [0xD7, b] (.dcpZpx b)
      (modifies 6 (.zpx b) (fun m => BitVec.ofInt 8 ((m.toNat : Int) - 1)) (fun _ n c => compared c.a n c)) ∧
    Means [0xDB, loByte n, hiByte n] (.dcpAby n)
      (modifies 7 (.aby n) (fun m => BitVec.ofInt 8 ((m.toNat : Int) - 1)) (fun _ n c => compared c.a n c)) ∧
    Means [0xDF, loByte n, hiByte n] (.dcpAbx n)
      (modifies 7 (.abx n) (fun m => BitVec.ofInt 8 ((m.toNat : Int) - 1)) (fun _ n c => compared c.a n c)) ∧
    Means [0xE3, b] (.iscIzx b)
      (fun s => modifies 8 (.izx b) (fun m => BitVec.ofNat 8 (m.toNat + 1)) (fun _ n c => subtracted s.params n c) s) ∧
    Means [0xE7, b] (.iscZp b)
      (fun s => modifies 5 (.zp b) (fun m => BitVec.ofNat 8 (m.toNat + 1)) (fun _ n c => subtracted s.params n c) s) ∧
    Means [0xEF, loByte n, hiByte n] (.iscAbs n)
      (fun s => modifies 6 (.abs n) (fun m => BitVec.ofNat 8 (m.toNat + 1)) (fun _ n c => subtracted s.params n c) s) ∧
    Means [0xF3, b] (.iscIzy b)
      (fun s => modifies 8 (.izy b) (fun m => BitVec.ofNat 8 (m.toNat + 1)) (fun _ n c => subtracted s.params n c) s) ∧
    Means [0xF7, b] (.iscZpx b)
      (fun s => modifies 6 (.zpx b) (fun m => BitVec.ofNat 8 (m.toNat + 1)) (fun _ n c => subtracted s.params n c) s) ∧
    Means [0xFB, loByte n, hiByte n] (.iscAby n)
      (fun s => modifies 7 (.aby n) (fun m => BitVec.ofNat 8 (m.toNat + 1)) (fun _ n c => subtracted s.params n c) s) ∧
    Means [0xFF, loByte n, hiByte n] (.iscAbx n)
      (fun s => modifies 7 (.abx n) (fun m => BitVec.ofNat 8 (m.toNat + 1)) (fun _ n c => subtracted s.params n c) s)

/-- The byte is shifted or rotated in memory, then OR, AND, EOR or ADC of the written byte with A; RRA adds with the
carry the rotate produced. Every form, one row each. (R235, R236, R237, R238) -/
def Obligations.ShiftAndCombineInstructions : Prop :=
  ∀ (b : Byte) (n : Word),
    Means [0x03, b] (.sloIzx b)
      (modifies 8 (.izx b) (leftWith false) (fun m n c => carry (topBit m) (gotA (c.a ||| n) c))) ∧
    Means [0x07, b] (.sloZp b)
      (modifies 5 (.zp b) (leftWith false) (fun m n c => carry (topBit m) (gotA (c.a ||| n) c))) ∧
    Means [0x0F, loByte n, hiByte n] (.sloAbs n)
      (modifies 6 (.abs n) (leftWith false) (fun m n c => carry (topBit m) (gotA (c.a ||| n) c))) ∧
    Means [0x13, b] (.sloIzy b)
      (modifies 8 (.izy b) (leftWith false) (fun m n c => carry (topBit m) (gotA (c.a ||| n) c))) ∧
    Means [0x17, b] (.sloZpx b)
      (modifies 6 (.zpx b) (leftWith false) (fun m n c => carry (topBit m) (gotA (c.a ||| n) c))) ∧
    Means [0x1B, loByte n, hiByte n] (.sloAby n)
      (modifies 7 (.aby n) (leftWith false) (fun m n c => carry (topBit m) (gotA (c.a ||| n) c))) ∧
    Means [0x1F, loByte n, hiByte n] (.sloAbx n)
      (modifies 7 (.abx n) (leftWith false) (fun m n c => carry (topBit m) (gotA (c.a ||| n) c))) ∧
    Means [0x23, b] (.rlaIzx b)
      (fun s => modifies 8 (.izx b) (leftWith s.cpu.p.c) (fun m n c => carry (topBit m) (gotA (c.a &&& n) c)) s) ∧
    Means [0x27, b] (.rlaZp b)
      (fun s => modifies 5 (.zp b) (leftWith s.cpu.p.c) (fun m n c => carry (topBit m) (gotA (c.a &&& n) c)) s) ∧
    Means [0x2F, loByte n, hiByte n] (.rlaAbs n)
      (fun s => modifies 6 (.abs n) (leftWith s.cpu.p.c) (fun m n c => carry (topBit m) (gotA (c.a &&& n) c)) s) ∧
    Means [0x33, b] (.rlaIzy b)
      (fun s => modifies 8 (.izy b) (leftWith s.cpu.p.c) (fun m n c => carry (topBit m) (gotA (c.a &&& n) c)) s) ∧
    Means [0x37, b] (.rlaZpx b)
      (fun s => modifies 6 (.zpx b) (leftWith s.cpu.p.c) (fun m n c => carry (topBit m) (gotA (c.a &&& n) c)) s) ∧
    Means [0x3B, loByte n, hiByte n] (.rlaAby n)
      (fun s => modifies 7 (.aby n) (leftWith s.cpu.p.c) (fun m n c => carry (topBit m) (gotA (c.a &&& n) c)) s) ∧
    Means [0x3F, loByte n, hiByte n] (.rlaAbx n)
      (fun s => modifies 7 (.abx n) (leftWith s.cpu.p.c) (fun m n c => carry (topBit m) (gotA (c.a &&& n) c)) s) ∧
    Means [0x43, b] (.sreIzx b)
      (modifies 8 (.izx b) (rightWith false) (fun m n c => carry (lowBit m) (gotA (c.a ^^^ n) c))) ∧
    Means [0x47, b] (.sreZp b)
      (modifies 5 (.zp b) (rightWith false) (fun m n c => carry (lowBit m) (gotA (c.a ^^^ n) c))) ∧
    Means [0x4F, loByte n, hiByte n] (.sreAbs n)
      (modifies 6 (.abs n) (rightWith false) (fun m n c => carry (lowBit m) (gotA (c.a ^^^ n) c))) ∧
    Means [0x53, b] (.sreIzy b)
      (modifies 8 (.izy b) (rightWith false) (fun m n c => carry (lowBit m) (gotA (c.a ^^^ n) c))) ∧
    Means [0x57, b] (.sreZpx b)
      (modifies 6 (.zpx b) (rightWith false) (fun m n c => carry (lowBit m) (gotA (c.a ^^^ n) c))) ∧
    Means [0x5B, loByte n, hiByte n] (.sreAby n)
      (modifies 7 (.aby n) (rightWith false) (fun m n c => carry (lowBit m) (gotA (c.a ^^^ n) c))) ∧
    Means [0x5F, loByte n, hiByte n] (.sreAbx n)
      (modifies 7 (.abx n) (rightWith false) (fun m n c => carry (lowBit m) (gotA (c.a ^^^ n) c))) ∧
    Means [0x63, b] (.rraIzx b)
      (fun s => modifies 8 (.izx b) (rightWith s.cpu.p.c) (fun m n c => added s.params n (carry (lowBit m) c)) s) ∧
    Means [0x67, b] (.rraZp b)
      (fun s => modifies 5 (.zp b) (rightWith s.cpu.p.c) (fun m n c => added s.params n (carry (lowBit m) c)) s) ∧
    Means [0x6F, loByte n, hiByte n] (.rraAbs n)
      (fun s => modifies 6 (.abs n) (rightWith s.cpu.p.c) (fun m n c => added s.params n (carry (lowBit m) c)) s) ∧
    Means [0x73, b] (.rraIzy b)
      (fun s => modifies 8 (.izy b) (rightWith s.cpu.p.c) (fun m n c => added s.params n (carry (lowBit m) c)) s) ∧
    Means [0x77, b] (.rraZpx b)
      (fun s => modifies 6 (.zpx b) (rightWith s.cpu.p.c) (fun m n c => added s.params n (carry (lowBit m) c)) s) ∧
    Means [0x7B, loByte n, hiByte n] (.rraAby n)
      (fun s => modifies 7 (.aby n) (rightWith s.cpu.p.c) (fun m n c => added s.params n (carry (lowBit m) c)) s) ∧
    Means [0x7F, loByte n, hiByte n] (.rraAbx n)
      (fun s => modifies 7 (.abx n) (rightWith s.cpu.p.c) (fun m n c => added s.params n (carry (lowBit m) c)) s)

/-- AND immediate, then the carry, shift, rotate or subtraction of each rule; ARR's decimal variant as the rule writes
it (log 11). Every form, one row each. (R239, R240, R241, R242) -/
def Obligations.ImmediateCombinations : Prop :=
  ∀ (b : Byte),
    Means [0x0B, b] (.ancImm0B b)
      (reads 2 false (.imm b) (fun m c => carry (topBit (c.a &&& m)) (gotA (c.a &&& m) c))) ∧
    Means [0x2B, b] (.ancImm2B b)
      (reads 2 false (.imm b) (fun m c => carry (topBit (c.a &&& m)) (gotA (c.a &&& m) c))) ∧
    Means [0x4B, b] (.alrImm b)
      (reads 2 false (.imm b) (fun m c => carry (lowBit (c.a &&& m)) (gotA (rightWith false (c.a &&& m)) c))) ∧
    Means [0x6B, b] (.arrImm b) (fun s => reads 2 false (.imm b) (arrLeaves s.params) s) ∧
    Means [0xCB, b] (.axsImm b)
      (reads 2 false (.imm b) (fun m c => { compared (c.a &&& c.x) m c with x := (c.a &&& c.x) - m }))

/-- Running it (PC being one past the opcode byte, the only byte fetched) sets halted with cause IllegalOpcode of the
opcode's address and value, PC back at it, and changes nothing else. Every form, one row each. (R245, R246, R247,
R248, R249, R250, R251) -/
def Obligations.HaltingOpcodes : Prop :=
  ∀ (b : Byte) (n : Word),
    Means [0x02] .jamImp02
      (fun s => .next { s with cpu := stopped (s.cpu.pc - 1) (.illegalOpcode (s.cpu.pc - 1) 0x02) s.cpu }) ∧
    Means [0x12] .jamImp12
      (fun s => .next { s with cpu := stopped (s.cpu.pc - 1) (.illegalOpcode (s.cpu.pc - 1) 0x12) s.cpu }) ∧
    Means [0x22] .jamImp22
      (fun s => .next { s with cpu := stopped (s.cpu.pc - 1) (.illegalOpcode (s.cpu.pc - 1) 0x22) s.cpu }) ∧
    Means [0x32] .jamImp32
      (fun s => .next { s with cpu := stopped (s.cpu.pc - 1) (.illegalOpcode (s.cpu.pc - 1) 0x32) s.cpu }) ∧
    Means [0x42] .jamImp42
      (fun s => .next { s with cpu := stopped (s.cpu.pc - 1) (.illegalOpcode (s.cpu.pc - 1) 0x42) s.cpu }) ∧
    Means [0x52] .jamImp52
      (fun s => .next { s with cpu := stopped (s.cpu.pc - 1) (.illegalOpcode (s.cpu.pc - 1) 0x52) s.cpu }) ∧
    Means [0x62] .jamImp62
      (fun s => .next { s with cpu := stopped (s.cpu.pc - 1) (.illegalOpcode (s.cpu.pc - 1) 0x62) s.cpu }) ∧
    Means [0x72] .jamImp72
      (fun s => .next { s with cpu := stopped (s.cpu.pc - 1) (.illegalOpcode (s.cpu.pc - 1) 0x72) s.cpu }) ∧
    Means [0x92] .jamImp92
      (fun s => .next { s with cpu := stopped (s.cpu.pc - 1) (.illegalOpcode (s.cpu.pc - 1) 0x92) s.cpu }) ∧
    Means [0xB2] .jamImpB2
      (fun s => .next { s with cpu := stopped (s.cpu.pc - 1) (.illegalOpcode (s.cpu.pc - 1) 0xB2) s.cpu }) ∧
    Means [0xD2] .jamImpD2
      (fun s => .next { s with cpu := stopped (s.cpu.pc - 1) (.illegalOpcode (s.cpu.pc - 1) 0xD2) s.cpu }) ∧
    Means [0xF2] .jamImpF2
      (fun s => .next { s with cpu := stopped (s.cpu.pc - 1) (.illegalOpcode (s.cpu.pc - 1) 0xF2) s.cpu }) ∧
    Means [0x8B, b] (.xaaImm b)
      (fun s => .next { s with cpu := stopped (s.cpu.pc - 1) (.illegalOpcode (s.cpu.pc - 1) 0x8B) s.cpu }) ∧
    Means [0xAB, b] (.lxaImm b)
      (fun s => .next { s with cpu := stopped (s.cpu.pc - 1) (.illegalOpcode (s.cpu.pc - 1) 0xAB) s.cpu }) ∧
    Means [0x93, b] (.shaIzy b)
      (fun s => .next { s with cpu := stopped (s.cpu.pc - 1) (.illegalOpcode (s.cpu.pc - 1) 0x93) s.cpu }) ∧
    Means [0x9F, loByte n, hiByte n] (.shaAby n)
      (fun s => .next { s with cpu := stopped (s.cpu.pc - 1) (.illegalOpcode (s.cpu.pc - 1) 0x9F) s.cpu }) ∧
    Means [0x9C, loByte n, hiByte n] (.shyAbx n)
      (fun s => .next { s with cpu := stopped (s.cpu.pc - 1) (.illegalOpcode (s.cpu.pc - 1) 0x9C) s.cpu }) ∧
    Means [0x9E, loByte n, hiByte n] (.shxAby n)
      (fun s => .next { s with cpu := stopped (s.cpu.pc - 1) (.illegalOpcode (s.cpu.pc - 1) 0x9E) s.cpu }) ∧
    Means [0x9B, loByte n, hiByte n] (.tasAby n)
      (fun s => .next { s with cpu := stopped (s.cpu.pc - 1) (.illegalOpcode (s.cpu.pc - 1) 0x9B) s.cpu })

/-- For each of the 256 instructions and every state exec answers a next state: never a fault, never a refusal; and so
does step in every state. There is no other exception than HALT and the interrupts, which are next states.
(60_exceptions.md R440, 50_bus.md R309, 60_exceptions.md R467) -/
def Obligations.EveryInstructionAndStepCompletes : Prop :=
  (∀ (i : Instr) (s : State), ∃ t, exec i s = .next t) ∧ (∀ s : State, ∃ t, step s = .next t)

/-- For every instruction, in every state, when exec answers a next state, the cycle count has grown by the table's base
cost for the opcode, plus one where the table has + and the operand's address computation crosses a page; for a
branch by 2, plus 1 if taken, plus 1 more if taken to another page; by 0 for an opcode that raises HALT (BRK
included under BRK_MODE = halt). The table is that of 30_encoding, written as its own matrix; the cost depends on
nothing else. (R105) -/
def Obligations.CostIsTheTableEntry : Prop :=
  ∀ (i : Instr) (s t : State), exec i s = .next t → t.cpu.cycles = s.cpu.cycles + tableCost i s

/-- For every instruction and state: if exec answers t and the instruction is not in the table's "written by" column for
C (Z and N; I; D; V), that flag is the same in t; BRK writes I only under BRK_MODE = interrupt; B is the same
whatever the instruction. halted and its cause change only in BRK and the opcodes that raise HALT, and nmi_pending
in no instruction. (10_state.md R14, 10_state.md R15, 60_exceptions.md R442) -/
def Obligations.FlagsChangeOnlyInTheirWriters : Prop :=
  ∀ (i : Instr) (s t : State), exec i s = .next t →
    (i.op ∉ ([.adc, .sbc, .cmp, .cpx, .cpy, .asl, .lsr, .rol, .ror, .clc, .sec, .plp, .rti, .slo, .rla, .sre, .rra, .dcp,
      .isc, .anc, .alr, .arr, .axs] : List Op) →
      t.cpu.p.c = s.cpu.p.c) ∧
    (i.op ∉ ([.lda, .ldx, .ldy, .tax, .tay, .txa, .tya, .tsx, .pla, .and_, .ora, .eor, .bit, .adc, .sbc, .cmp, .cpx, .cpy,
      .inc, .dec, .inx, .iny, .dex, .dey, .asl, .lsr, .rol, .ror, .plp, .rti, .lax, .slo, .rla, .sre, .rra, .dcp, .isc, .anc,
      .alr, .arr, .axs, .las] : List Op) →
      t.cpu.p.z = s.cpu.p.z ∧ t.cpu.p.n = s.cpu.p.n) ∧
    (i.op ∉ ([.sei, .cli, .plp, .rti, .brk] : List Op) → t.cpu.p.i = s.cpu.p.i) ∧
    (i.op = .brk → s.params.brkMode = .halt → t.cpu.p.i = s.cpu.p.i) ∧
    (i.op ∉ ([.sed, .cld, .plp, .rti] : List Op) → t.cpu.p.d = s.cpu.p.d) ∧
    (i.op ∉ ([.adc, .sbc, .bit, .clv, .plp, .rti, .rra, .isc, .arr] : List Op) → t.cpu.p.v = s.cpu.p.v) ∧
    t.cpu.p.b = s.cpu.p.b ∧ t.cpu.nmiPending = s.cpu.nmiPending ∧
    (i.op ∉ ([.brk, .jam, .xaa, .lxa, .sha, .shy, .shx, .tas] : List Op) →
      t.cpu.halted = s.cpu.halted ∧ t.cpu.haltCause = s.cpu.haltCause)

/-- For every instruction and state: A is unchanged outside the loads, transfers, arithmetic, logic, shift and combined
instructions that name it; X and Y outside theirs (no addressing mode modifies an index register); S outside TXS,
pushes, pulls, calls, returns, BRK and LAS; PC (already past the instruction) outside jumps, calls, returns,
branches, BRK and the opcodes that raise HALT. (10_state.md R10, 10_state.md R11, 40_addressing.md R90) -/
def Obligations.RegistersChangeOnlyInTheirWriters : Prop :=
  ∀ (i : Instr) (s t : State), exec i s = .next t →
    (i.op ∉ ([.lda, .txa, .tya, .pla, .and_, .ora, .eor, .adc, .sbc, .asl, .lsr, .rol, .ror, .lax, .isc, .slo, .rla, .sre,
        .rra, .anc, .alr, .arr, .las] : List Op) → t.cpu.a = s.cpu.a) ∧
    (i.op ∉ ([.ldx, .tax, .tsx, .inx, .dex, .lax, .axs, .las] : List Op) → t.cpu.x = s.cpu.x) ∧
    (i.op ∉ ([.ldy, .tay, .iny, .dey] : List Op) → t.cpu.y = s.cpu.y) ∧
    (i.op ∉ ([.txs, .pha, .php, .pla, .plp, .jsr, .rts, .rti, .brk, .las] : List Op) → t.cpu.s = s.cpu.s) ∧
    (i.op ∉ ([.jmp, .jsr, .rts, .rti, .brk, .bcc, .bcs, .beq, .bne, .bmi, .bpl, .bvc, .bvs, .jam, .xaa, .lxa, .sha, .shy,
        .shx, .tas] : List Op) → t.cpu.pc = s.cpu.pc)

/-- For every instruction and state, when exec answers t: every address that no stored address disturbs reads the same
byte in t as in s, where the stored addresses are the effective address for a store or read-modify-write, the one,
two or three stack addresses of PHA, PHP, JSR and BRK (interrupt), and none for every other form. Disturbing means
being the same byte of RAM (which repeats every 2 KB), or a bank write under mapper 2 and an address of its
switchable window. (40_addressing.md R107, 20_memory.md R52, 50_bus.md R302, 52_cartridge_sync.md R409) -/
def Obligations.MemoryChangesOnlyWhereStored : Prop :=
  ∀ (i : Instr) (s t : State), exec i s = .next t →
    ∀ a : Word, (∀ w ∈ storedAddresses i s, disturbs w a s = false) → peek a t = peek a s

/-- For all states s and t, if step s answers t: the parameters, program data and its size, mapper, mirroring,
chr_is_ram, the controller snapshots and the IRQ input level are the same, and graphics data are the same unless
they are RAM. Bank select and graphics RAM are the only mutable cartridge state. (10_state.md R25,
52_cartridge_sync.md R400, 52_cartridge_sync.md R412, 50_bus.md R306) -/
def Obligations.StepKeepsTheSession : Prop :=
  ∀ s t : State, step s = .next t → SameSession s t

/-- For every state meeting State.Inv, if step answers t then t meets it: RAM, vram, palette, oam, graphics and program
memory, the frame buffer and the frame handed out are canonical lists of in-range indexes; scanline is 0 to 261 and
cycle 0 to 340; at most eight sprites are selected for this line and for the next; n_prg is at least 1, at most 2
under mapper 0; B is 0; there is a halt cause exactly when halted. (51_ppu.md R330, 50_bus.md R301,
52_cartridge_sync.md R400, 10_state.md R15, 10_state.md R22) -/
def Obligations.StepKeepsTheInvariant : Prop :=
  ∀ s t : State, s.Inv → step s = .next t → t.Inv

/-- State.reset meets State.Inv (its blank cartridge is the model's choice, log 3). (70_reset_and_hazards.md R480,
70_reset_and_hazards.md R481) -/
def Obligations.ResetMeetsTheInvariant : Prop :=
  State.reset.Inv

/-- A = X = Y = 0, S = 0xFD, only I set, nmi_pending, halted, cause and cycles clear, packed flags 0x24 and 0x34;
strobe, shift registers and snapshots clear; PPU registers, counters, latches and lists clear; bank 0; in this state
no halt, no latched NMI and no NMI request stand. A, X, Y and the flags are the defaults of R26, which the model
takes where the spec lets a model take any value (log 12). PC is the word the reset vector reads (the blank
cartridge it reads from is the model's choice, log 3; the memories the spec leaves unspecified are not spoken of).
(10_state.md R26, 50_bus.md R310, 51_ppu.md R370, 52_cartridge_sync.md R407) -/
def Obligations.ResetValues : Prop :=
  let s := State.reset
  s.cpu.a = 0x00 ∧ s.cpu.x = 0x00 ∧ s.cpu.y = 0x00 ∧ s.cpu.s = 0xFD ∧
  s.cpu.p = { c := false, z := false, i := true, d := false, b := false, v := false, n := false } ∧
  (pack s.cpu.p false = 0x24 ∧ pack s.cpu.p true = 0x34) ∧
  (s.cpu.nmiPending = false ∧ s.cpu.halted = false ∧ s.cpu.haltCause = none ∧ s.cpu.cycles = 0) ∧
  VectorHolds 0xFFFC s.cpu.pc s ∧
  (s.bus.strobe = false ∧ s.bus.shift1 = 0 ∧ s.bus.shift2 = 0 ∧ s.bus.buttons1 = 0 ∧ s.bus.buttons2 = 0) ∧
  (s.ppu.ctrl = 0 ∧ s.ppu.mask = 0 ∧ s.ppu.vblank = false ∧ s.ppu.sprite0Hit = false ∧ s.ppu.spriteOverflow = false) ∧
  (s.ppu.oamAddr = 0 ∧ s.ppu.v = 0 ∧ s.ppu.t = 0 ∧ s.ppu.x = 0 ∧ s.ppu.w = false ∧ s.ppu.readBuffer = 0) ∧
  (s.ppu.scanline = 0 ∧ s.ppu.cycle = 0 ∧ s.ppu.nmiRequest = false ∧ s.ppu.frameReady = false) ∧
  (s.ppu.lineSprites = [] ∧ s.ppu.nextSprites = []) ∧
  (s.ppu.bg.patLo = 0 ∧ s.ppu.bg.patHi = 0 ∧ s.ppu.bg.attLo = 0 ∧ s.ppu.bg.attHi = 0) ∧
  (s.ppu.bg.ntLatch = 0 ∧ s.ppu.bg.ptLoLatch = 0 ∧ s.ppu.bg.ptHiLatch = 0 ∧ s.ppu.bg.atLatch = 0) ∧
  s.cart.bank = 0

/-- For all RAM addresses a, b (0x0000 to 0x1FFF), every byte v and state with canonical RAM: writing v at a and reading
b gives v when a and b agree modulo 2048, else what b read before; the read changes no state, and the write changes
no state but the RAM byte. So 0x0000, 0x0800, 0x1000 and 0x1800 are one byte. (R302) -/
def Obligations.RamReadsBackWhatWasWritten : Prop :=
  ∀ (s : State) (a b : Word) (v : Byte), Store.wf s.bus.ram = true → a.toNat < 0x2000 → b.toNat < 0x2000 →
    (busRead b (busWrite a v s)).val = (if a.toNat % 2048 = b.toNat % 2048 then v else (busRead b s).val) ∧
    (busRead b s).st = s ∧
    busWrite a v s = { s with bus := { s.bus with ram := writeCell s.bus.ram (a.toNat % 2048) v } }

/-- For every address and state. 0x2000 to 0x3FFF: a read or write changes only the PPU (a write through the data
register possibly graphics RAM; a read of an open-bus bit only the free-value counter). 0x4016: only the controller
registers. 0x4017: a write changes nothing. 0x4000 to 0x4015 and 0x4018 to 0x7FFF: a read gives the free open-bus
value of that address and draw, a write changes nothing. From 0x8000: a read changes nothing, a write only the bank
register. The CPU is never changed. RAM is the previous statement. The counter is the model's own (log 2).
(50_bus.md R300, 50_bus.md R303, 50_bus.md R306, 50_bus.md R307, 50_bus.md R308) -/
def Obligations.BusRoutesEachAddressToOneDevice : Prop :=
  ∀ (s : State) (a : Word) (v : Byte),
    (busRead a s).st.cpu = s.cpu ∧ (busWrite a v s).cpu = s.cpu ∧
    (0x2000 ≤ a.toNat → a.toNat < 0x4000 →
      (∃ p d, (busRead a s).st = { s with ppu := p, draws := d }) ∧
      ∃ p m, busWrite a v s = { s with ppu := p, cart := { s.cart with chr := m } }) ∧
    (a = 0x4016 →
      (∃ r, (busRead a s).st = { s with bus := { s.bus with shift1 := r } }) ∧
      ∃ h r1 r2, busWrite a v s = { s with bus := { s.bus with strobe := h, shift1 := r1, shift2 := r2 } }) ∧
    (a = 0x4017 →
      (∃ r, (busRead a s).st = { s with bus := { s.bus with shift2 := r } }) ∧ busWrite a v s = s) ∧
    (0x4000 ≤ a.toNat → a.toNat < 0x8000 → a ≠ 0x4016 → a ≠ 0x4017 →
      busRead a s = { val := openBusValue a s.draws, st := { s with draws := s.draws + 1 } } ∧ busWrite a v s = s) ∧
    (0x8000 ≤ a.toNat →
      (busRead a s).st = s ∧ ∃ k, busWrite a v s = { s with cart := { s.cart with bank := k } })

/-- For every state and any two bytes written to 0x4016, the first with bit 0 set and the second with it clear: the k-th
following read of 0x4016 (of 0x4017) gives bit k of the snapshot of port 1 (of port 2) for k below 8 and 1 from then
on, bits 7 to 1 zero. While the strobe stays high every read gives bit 0 of the current snapshot. (50_bus.md R304,
50_bus.md R305) -/
def Obligations.ControllerShiftsOutTheSnapshot : Prop :=
  ∀ (s : State) (hi lo : Byte) (k : Nat), hi.getLsbD 0 = true → lo.getLsbD 0 = false →
    let high := busWrite 0x4016 hi s
    let low := busWrite 0x4016 lo high
    (busRead 0x4016 (afterReads 0x4016 k low)).val =
      (if k < 8 then (if s.bus.buttons1.getLsbD k then 1 else 0) else 1) ∧
    (busRead 0x4017 (afterReads 0x4017 k low)).val =
      (if k < 8 then (if s.bus.buttons2.getLsbD k then 1 else 0) else 1) ∧
    (busRead 0x4016 (afterReads 0x4016 k high)).val = (if s.bus.buttons1.getLsbD 0 then 1 else 0) ∧
    (busRead 0x4017 (afterReads 0x4017 k high)).val = (if s.bus.buttons2.getLsbD 0 then 1 else 0)

/-- For every address a of the window 0x2000 to 0x3FFF, byte d and state, by a modulo 8. 0: a write sets ctrl to d and
bits 11 and 10 of t to bits 1 and 0 of d, nothing else. 1: a write sets mask. 2: a read gives vblank, sprite-zero
hit and overflow in bits 7, 6, 5 over the low five bits of a free open-bus byte, then clears vblank and w and
nothing else of the PPU; a write does nothing. 3: a write sets oam_addr. 4: a read gives oam at oam_addr and changes
nothing, a write stores there and adds 1 to oam_addr modulo 256. Offsets 0, 1, 3, 5 and 6 read as open bus, changing
no state but the free-value counter. That an open-bus value is a function of the address and of the counter draws,
which such a read advances, is the model's form (log 2): R308 leaves the value open and R340 lets the read change no
state of the spec. (51_ppu.md R340, 51_ppu.md R341, 51_ppu.md R342, 51_ppu.md R343, 51_ppu.md R344, 51_ppu.md R345,
50_bus.md R308) -/
def Obligations.PpuStatusControlMaskOamPorts : Prop :=
  ∀ (s : State) (a : Word) (d : Byte), 0x2000 ≤ a.toNat → a.toNat < 0x4000 →
    (a.toNat % 8 = 0 → ∃ t, busWrite a d s = { s with ppu := { s.ppu with ctrl := d, t := t } } ∧
      ∀ k < 15, t.getLsbD k =
        (if k = 10 then d.getLsbD 0 else if k = 11 then d.getLsbD 1 else s.ppu.t.getLsbD k)) ∧
    (a.toNat % 8 = 1 → busWrite a d s = { s with ppu := { s.ppu with mask := d } }) ∧
    (a.toNat % 8 = 2 →
      (busRead a s).val.toNat = 128 * s.ppu.vblank.toNat + 64 * s.ppu.sprite0Hit.toNat +
        32 * s.ppu.spriteOverflow.toNat + (openBusValue a s.draws).toNat % 32 ∧
      (busRead a s).st = { s with
        ppu := { s.ppu with vblank := false, w := false }
        draws := s.draws + 1 } ∧
      busWrite a d s = s) ∧
    (a.toNat % 8 = 3 → busWrite a d s = { s with ppu := { s.ppu with oamAddr := d } }) ∧
    (a.toNat % 8 = 4 →
      busRead a s = { val := readCell s.ppu.oam s.ppu.oamAddr.toNat, st := s } ∧
      busWrite a d s = { s with ppu := { s.ppu with
        oam := writeCell s.ppu.oam s.ppu.oamAddr.toNat d
        oamAddr := BitVec.ofNat 8 (s.ppu.oamAddr.toNat + 1) } }) ∧
    (a.toNat % 8 ∈ [0, 1, 3, 5, 6] →
      busRead a s = { val := openBusValue a s.draws, st := { s with draws := s.draws + 1 } })

/-- For every state and byte d, written to any address of the window with offset 5 or 6: with w clear, PPUSCROLL puts
bits 7 to 3 of d in t[4:0] and bits 2 to 0 in x and sets w; with w set it puts bits 2 to 0 in t[14:12] and bits 7 to
3 in t[9:5] and clears w. With w clear, PPUADDR puts d[5:0] in t[13:8], clears t[14] and sets w; with w set it puts
d in t[7:0], copies t to v and clears w. Nothing else changes. So from w clear, writing hi then lo sets v to (hi
modulo 64) * 256 + lo. (R346, R348) -/
def Obligations.ScrollAndAddressTwoWriteProtocol : Prop :=
  (∀ (s : State) (a : Word) (d : Byte), 0x2000 ≤ a.toNat → a.toNat < 0x4000 → a.toNat % 8 = 5 →
    (s.ppu.w = false → ∃ t, busWrite a d s =
        { s with ppu := { s.ppu with t := t, x := BitVec.ofNat 3 (d.toNat % 8), w := true } } ∧
      t.toNat = s.ppu.t.toNat / 32 * 32 + d.toNat / 8) ∧
    (s.ppu.w = true → ∃ t, busWrite a d s = { s with ppu := { s.ppu with t := t, w := false } } ∧
      t.toNat = d.toNat % 8 * 4096 + s.ppu.t.toNat / 1024 % 4 * 1024 + d.toNat / 8 * 32 + s.ppu.t.toNat % 32)) ∧
  (∀ (s : State) (a : Word) (d : Byte), 0x2000 ≤ a.toNat → a.toNat < 0x4000 → a.toNat % 8 = 6 →
    (s.ppu.w = false → ∃ t, busWrite a d s = { s with ppu := { s.ppu with t := t, w := true } } ∧
      t.toNat = d.toNat % 64 * 256 + s.ppu.t.toNat % 256) ∧
    (s.ppu.w = true → ∃ t, busWrite a d s = { s with ppu := { s.ppu with t := t, v := t, w := false } } ∧
      t.toNat = s.ppu.t.toNat / 256 * 256 + d.toNat)) ∧
  (∀ (s : State) (hi lo : Byte), s.ppu.w = false →
    let u := busWrite 0x2006 lo (busWrite 0x2006 hi s)
    u.ppu.v.toNat = hi.toNat % 64 * 256 + lo.toNat ∧ u.ppu.w = false)

/-- For every address of the window with offset 7, every byte and state, with p = v modulo 0x4000 and inc = 32 or 1 by
bit 2 of ctrl. Read, p below 0x3F00: gives read_buffer, which then takes the byte at p. Read, p from 0x3F00: gives
the palette entry at p, and read_buffer takes the byte at p - 0x1000. Write: the byte goes to p in the PPU space. In
each case v becomes (v + inc) modulo 2^15 and nothing else changes. (R347) -/
def Obligations.DataPortReadsThroughItsBuffer : Prop :=
  ∀ (s : State) (a : Word) (d : Byte), 0x2000 ≤ a.toNat → a.toNat < 0x4000 → a.toNat % 8 = 7 →
    let p : Word := BitVec.ofNat 16 (s.ppu.v.toNat % 0x4000)
    let v' : BitVec 15 := BitVec.ofNat 15 (s.ppu.v.toNat + (if s.ppu.ctrl.getLsbD 2 then 32 else 1))
    (p.toNat < 0x3F00 → busRead a s =
      { val := s.ppu.readBuffer
        st := { s with ppu := { s.ppu with readBuffer := ppuRead s.cart s.ppu p, v := v' } } }) ∧
    (0x3F00 ≤ p.toNat → busRead a s =
      { val := ppuRead s.cart s.ppu p
        st := { s with ppu := { s.ppu with
          readBuffer := ppuRead s.cart s.ppu (BitVec.ofNat 16 (p.toNat - 0x1000)), v := v' } } }) ∧
    busWrite a d s = { ppuWrite p d s with ppu := { (ppuWrite p d s).ppu with v := v' } }

/-- For all 14-bit addresses a, b of one region, a byte d and a state whose memories are canonical: writing d at a and
reading b gives d when both are one cell, else the old byte. Nametables (0x2000 to 0x3EFF): one cell when they agree
modulo 0x800 under vertical mirroring, or in bit 11 and the low ten bits under horizontal. Palette (0x3F00 up):
agreeing modulo 32, entries 0x10, 0x14, 0x18, 0x1C being 0x00, 0x04, 0x08, 0x0C; six bits are kept, of which
greyscale shows the upper two. Pattern data (below 0x2000): the byte itself if graphics are RAM; if ROM nothing
changes. (51_ppu.md R333, 51_ppu.md R334, 51_ppu.md R335, 51_ppu.md R336, 51_ppu.md R337, 52_cartridge_sync.md R406) -/
def Obligations.PpuSpaceMirrorsAndAliases : Prop :=
  ∀ (s : State) (a b : Word) (d : Byte), Store.wf s.ppu.vram = true → Store.wf s.ppu.palette = true →
    Store.wf s.cart.chr = true →
    let t := ppuWrite a d s
    (0x2000 ≤ a.toNat → a.toNat < 0x3F00 → 0x2000 ≤ b.toNat → b.toNat < 0x3F00 →
      ppuRead t.cart t.ppu b =
        if vramByte s.cart.mirroring a = vramByte s.cart.mirroring b then d else ppuRead s.cart s.ppu b) ∧
    (0x3F00 ≤ a.toNat → a.toNat < 0x4000 → 0x3F00 ≤ b.toNat → b.toNat < 0x4000 →
      ppuRead t.cart t.ppu b =
        if paletteByte a = paletteByte b then d &&& (if s.ppu.mask.getLsbD 0 then 0x30 else 0x3F)
        else ppuRead s.cart s.ppu b) ∧
    (a.toNat < 0x2000 → b.toNat < 0x2000 →
      ppuRead t.cart t.ppu b = if a = b ∧ s.cart.chrIsRam = true then d else ppuRead s.cart s.ppu b)

/-- For every cartridge and PPU state, one dot: vblank becomes 1 at (241, 1), 0 at (0, 1), and is otherwise unchanged;
nmi_request is set at (241, 1) when ctrl bit 7 is set, and is otherwise unchanged; at (261, 1) both sprite flags
become 0; frame_ready is set at (261, 340) and otherwise unchanged. These hold whether or not rendering is enabled.
(51_ppu.md R352, 51_ppu.md R353, 51_ppu.md R350, 51_ppu.md R369) -/
def Obligations.FlagEventsOfADot : Prop :=
  ∀ (c : Cartridge) (p : Ppu),
    let q := ppuDot c p
    let at' : Nat → Nat → Prop := fun line dot => p.scanline = line ∧ p.cycle = dot
    (at' 241 1 → q.vblank = true) ∧ (at' 0 1 → q.vblank = false) ∧
    (¬at' 241 1 → ¬at' 0 1 → q.vblank = p.vblank) ∧
    (at' 241 1 → q.nmiRequest = (p.nmiRequest || p.ctrl.getLsbD 7)) ∧
    (¬at' 241 1 → q.nmiRequest = p.nmiRequest) ∧
    (at' 261 1 → q.sprite0Hit = false ∧ q.spriteOverflow = false) ∧
    (at' 261 340 → q.frameReady = true) ∧ (¬at' 261 340 → q.frameReady = p.frameReady)

/-- For every cartridge and PPU state with counters in range, with rendering on or off, and every n: after n dots the
dot number is (dot number + n) modulo 89,342 and the counters are in range. If frame_ready was clear there is
exactly one dot among the next 89,342 that sets it: there is k below 89,342 such that after n dots (n at most
89,342) frame_ready is set exactly when n is above k. (51_ppu.md R371, 51_ppu.md R350, 51_ppu.md R351) -/
def Obligations.FrameCadence : Prop :=
  ∀ (c : Cartridge) (p : Ppu), p.scanline < 262 → p.cycle < 341 →
    (∀ n : Nat, (ppuDots c n p).scanline < 262 ∧ (ppuDots c n p).cycle < 341 ∧
      (ppuDots c n p).scanline * 341 + (ppuDots c n p).cycle = (p.scanline * 341 + p.cycle + n) % 89342) ∧
    (p.frameReady = false →
      ∃ k < 89342, ∀ n ≤ 89342, (ppuDots c n p).frameReady = decide (k < n))

/-- For every cartridge, PPU state and mask, one dot. On scanlines 0 to 239 at dots 1 to 256 (column px = dot - 1) the
frame buffer changes in exactly the entry scanline * 256 + px. The value is the palette entry of the composed pixel,
with its low four bits cleared under greyscale. The background, where mask bit 3 shows it (and bit 1, in columns 0
to 7), is bit 15 - x of the four shift registers as they stand at the pixel, after this dot's shift (dot 1 has
none). The sprite, where mask bit 4 shows it (and bit 2, in columns 0 to 7), is the first record of the line that
covers px with a non-zero pixel, of palettes 4 to 7. A transparent layer gives way to the other, two opaque ones go
by attribute bit 5, and none shows entry 0. Sprite-zero hit becomes 1 where both are opaque, the record is sprite
zero's and px is not 255, and is otherwise unchanged. With both show bits clear the entry is 0. At every other dot
the frame buffer is unchanged, and so is sprite-zero hit but for its clearing at (261, 1). (51_ppu.md R350,
51_ppu.md R355, 51_ppu.md R356, 51_ppu.md R365, 51_ppu.md R366, 51_ppu.md R367, 51_ppu.md R368, 51_ppu.md R336,
51_ppu.md R352) -/
def Obligations.EachVisibleDotWritesItsPixel : Prop :=
  ∀ (c : Cartridge) (p : Ppu),
    let visible := p.scanline ≤ 239 ∧ 1 ≤ p.cycle ∧ p.cycle ≤ 256
    (visible →
      (ppuDot c p).frame = writeCell p.frame (p.scanline * 256 + p.cycle - 1)
        (readCell p.palette (shownEntry p) &&& (if p.mask.getLsbD 0 then 0x30 else 0x3F)) ∧
      (ppuDot c p).sprite0Hit = (p.sprite0Hit || meetsSprite0 p) ∧
      (p.mask.getLsbD 3 = false → p.mask.getLsbD 4 = false → shownEntry p = 0)) ∧
    (¬visible → (ppuDot c p).frame = p.frame ∧
      (ppuDot c p).sprite0Hit = (p.sprite0Hit && !decide (p.scanline = 261 ∧ p.cycle = 1)))

/-- For every cartridge and PPU state with rendering enabled at dot 257 of scanline s below 240, with h the sprite
height: after the dot, next_sprites has min(8, count) records, count being the number of the 64 sprites with 0 <= s
- y < h; the j-th record is that of the sprite with exactly j sprites in range before it; and the overflow flag is
set if count is above 8, else unchanged. (51_ppu.md R363) -/
def Obligations.SpriteEvaluationPicksTheFirstEight : Prop :=
  ∀ (c : Cartridge) (p : Ppu), (p.mask.getLsbD 3 = true ∨ p.mask.getLsbD 4 = true) → p.scanline ≤ 239 → p.cycle = 257 →
    let h : Nat := if p.ctrl.getLsbD 5 then 16 else 8
    let y : Nat → Nat := fun n => (readCell p.oam (4 * n)).toNat
    let inRange : Nat → Bool := fun n => decide (y n ≤ p.scanline ∧ p.scanline - y n < h)
    let count := (List.range 64).countP inRange
    let q := ppuDot c p
    q.nextSprites.length = min 8 count ∧
    (∀ n < 64, inRange n = true → (List.range n).countP inRange < 8 →
      q.nextSprites[(List.range n).countP inRange]? =
        some { y := readCell p.oam (4 * n), tile := readCell p.oam (4 * n + 1), attr := readCell p.oam (4 * n + 2)
               x := readCell p.oam (4 * n + 3), isZero := decide (n = 0) }) ∧
    q.spriteOverflow = (p.spriteOverflow || decide (8 < count))

/-- For every state, address a from 0x8000 up and byte v. Mapper 0: a read gives the program byte at (a - 0x8000) modulo
the image size, a write changes nothing. Mapper 2: a read below 0xC000 gives byte a modulo 16384 of bank (bank
modulo n_prg), from 0xC000 of the last bank; a write sets bank to v and changes nothing else, so RAM and program
data stay and only reads below 0xC000 change. Below 0x8000 both mappers are open bus: the free value is read, a
write does nothing. (R404, R405, R408, R409) -/
def Obligations.ProgramDataMappingAndBanks : Prop :=
  (∀ (s : State) (a : Word) (v : Byte), s.cart.mapper = .fixed → 0x8000 ≤ a.toNat →
    busRead a s = { val := readCell s.cart.prg ((a.toNat - 0x8000) % (s.cart.nPrg * 16384)), st := s } ∧
    busWrite a v s = s) ∧
  (∀ (s : State) (a b : Word) (v : Byte), s.cart.mapper = .banked → 0x8000 ≤ a.toNat → 0x8000 ≤ b.toNat →
    let bank : Byte → Nat := fun k => if b.toNat < 0xC000 then k.toNat % s.cart.nPrg else s.cart.nPrg - 1
    busRead b s = { val := readCell s.cart.prg (bank s.cart.bank * 16384 + b.toNat % 16384), st := s } ∧
    busWrite a v s = { s with cart := { s.cart with bank := v } } ∧
    (busRead b (busWrite a v s)).val = readCell s.cart.prg (bank v * 16384 + b.toNat % 16384)) ∧
  (∀ (c : Cartridge) (a : Word) (v : Byte), a.toNat < 0x8000 → cartCpuRead c a = none ∧ cartCpuWrite c a v = c)

/-- For every byte string: parsing it gives an error exactly when it is shorter than 16 bytes, or bytes 0 to 3 are not
the constant, or byte 4 is 0, or the mapper identifier is not 0 or 2, or it is 0 with more than two program units,
or byte 5 is above 1, or flag 6 bit 3 is set, or the string is shorter than header, trainer, program and graphics
data. Bytes after the graphics data do not matter. (Which reason is reported when several hold is the model's
choice, log 14, and not stated.) (R411) -/
def Obligations.ImagesAreRefusedExactlyAsListed : Prop :=
  ∀ image : List Byte,
    let byte : Nat → Byte := fun k => image.getD k 0
    let mapper : Nat := (byte 7).toNat / 16 * 16 + (byte 6).toNat / 16
    let trainer : Nat := if (byte 6).getLsbD 2 then 512 else 0
    ((∃ e, parseImage image = .error e) ↔
      image.length < 16 ∨ image.take 4 ≠ [0x4E, 0x45, 0x53, 0x1A] ∨ (byte 4).toNat = 0 ∨ (mapper ≠ 0 ∧ mapper ≠ 2) ∨
      (mapper = 0 ∧ 2 < (byte 4).toNat) ∨ 1 < (byte 5).toNat ∨ (byte 6).getLsbD 3 = true ∨
      image.length < 16 + trainer + (byte 4).toNat * 16384 + (byte 5).toNat * 8192) ∧
    (∀ (c : Cartridge) (more : List Byte), parseImage image = .ok c → parseImage (image ++ more) = .ok c)

/-- For every image that loads: n_prg is byte 4; program byte k is the byte k after the header and trainer; graphics are
RAM exactly when byte 5 is 0, else graphics byte k follows the program data; the mapper is 0 or 2 by the identifier;
mirroring is vertical exactly when flag 6 bit 0 is set; bank is 0; and a session created from it meets the
invariant. (The contents of graphics RAM are the model's choice and not stated.) (52_cartridge_sync.md R410,
52_cartridge_sync.md R412, 52_cartridge_sync.md R407) -/
def Obligations.ImageFieldsReachTheCartridge : Prop :=
  ∀ (image : List Byte) (c : Cartridge), parseImage image = .ok c →
    let byte : Nat → Byte := fun k => image.getD k 0
    let start : Nat := if (byte 6).getLsbD 2 then 528 else 16
    c.nPrg = (byte 4).toNat ∧
    (∀ k < c.nPrg * 16384, readCell c.prg k = byte (start + k)) ∧
    (c.chrIsRam = true ↔ (byte 5).toNat = 0) ∧
    (c.chrIsRam = false → ∀ k < 8192, readCell c.chr k = byte (start + c.nPrg * 16384 + k)) ∧
    (c.mapper = .fixed ↔ (byte 7).toNat / 16 * 16 + (byte 6).toNat / 16 = 0) ∧
    (c.mirroring = .vertical ↔ (byte 6).getLsbD 0 = true) ∧ c.bank = 0 ∧
    (∀ (params : Params) (s : State), createSession params image = .ok s → s.Inv)

/-- For every image that loads and either value of each parameter: the session's PC is the little-endian word its own
bus reads at 0xFFFC and 0xFFFD; A, X, Y are 0, S is 0xFD, the flags are those of reset (only I set), nmi_pending,
halted, cause and cycles are clear; the bus and the PPU are at their power-up state (dot (0,0)), nothing was pushed,
and the cartridge is the image's. Of the power-up state, the zero contents of RAM, vram, palette, oam and frame are
the model's choice where the spec leaves them unspecified (log 1), and the defaults of A, X, Y and the flags are
R26's (log 12). (70_reset_and_hazards.md R480, 70_reset_and_hazards.md R481, 52_cartridge_sync.md R423, 50_bus.md
R310, 51_ppu.md R370, 10_state.md R26) -/
def Obligations.SessionStartsAtTheResetVector : Prop :=
  ∀ (params : Params) (image : List Byte) (c : Cartridge), parseImage image = .ok c →
    ∃ s, createSession params image = .ok s ∧ VectorHolds 0xFFFC s.cpu.pc s ∧
      s.cpu = { a := 0x00, x := 0x00, y := 0x00, s := 0xFD, pc := s.cpu.pc
                p := { c := false, z := false, i := true, d := false, b := false, v := false, n := false }
                nmiPending := false, halted := false, haltCause := none, cycles := 0 } ∧
      s.bus = Bus.reset ∧ s.ppu = Ppu.reset ∧ s.cart = c ∧ s.params = params

/-- For every state with the PPU counters in range and no undelivered frame, if step answers t and t is not halted: the
cycle count has not gone down, the dot number is (dot number + 3 * cycles added) modulo 89,342, and frame_ready is
clear; if that passed the end of the frame, the frame buffer as it is after those dots was handed to the host and
the count of frames went up by one, else neither changed. The handed-out copy frameOut and the count framesReturned
are the model's own form for the frame R420 returns (log 8). (52_cartridge_sync.md R420, 52_cartridge_sync.md R422,
70_reset_and_hazards.md R486) -/
def Obligations.DotsFollowTheCycleCount : Prop :=
  ∀ s t : State, s.ppu.scanline < 262 → s.ppu.cycle < 341 → s.ppu.frameReady = false → step s = .next t →
    t.cpu.halted = false →
    let moved := dotNumber s.ppu + 3 * (t.cpu.cycles - s.cpu.cycles)
    s.cpu.cycles ≤ t.cpu.cycles ∧ dotNumber t.ppu = moved % 89342 ∧ t.ppu.frameReady = false ∧
    (89342 ≤ moved → t.frameOut = t.ppu.frame ∧ t.framesReturned = s.framesReturned + 1) ∧
    (moved < 89342 → t.frameOut = s.frameOut ∧ t.framesReturned = s.framesReturned)

/-- For every v and t as 15-bit numbers. Coarse X: +1, except at column 31, which goes to 0 and flips bit 10. Y: +
0x1000 below fine row 7; else the fine row goes to 0 and the coarse row goes up by one, row 29 to 0 flipping bit 11,
row 31 to 0 without flipping. The horizontal copy takes bits 10 and 4 to 0 of t, the vertical copy bits 14 to 11 and
9 to 5, and each leaves the other bits of v. (R359, R360, R361, R362) -/
def Obligations.ScrollIncrementsWrapAsCounters : Prop :=
  (∀ v : BitVec 15,
    (v.toNat % 32 = 31 → (incCoarseX v).toNat = (v ^^^ 0x0400).toNat - 31) ∧
    (v.toNat % 32 ≠ 31 → (incCoarseX v).toNat = v.toNat + 1) ∧
    (v.toNat / 4096 < 7 → (incY v).toNat = v.toNat + 0x1000) ∧
    (v.toNat / 4096 = 7 →
      let row := v.toNat / 32 % 32
      (row = 29 → (incY v).toNat = (v ^^^ 0x0800).toNat - 0x7000 - 29 * 32) ∧
      (row = 31 → (incY v).toNat = v.toNat - 0x7000 - 31 * 32) ∧
      (row ≠ 29 → row ≠ 31 → (incY v).toNat = v.toNat - 0x7000 + 32))) ∧
  (∀ t v : BitVec 15, ∀ k < 15,
    (copyHorizontal t v).getLsbD k = (if k ≤ 4 ∨ k = 10 then t.getLsbD k else v.getLsbD k) ∧
    (copyVertical t v).getLsbD k = (if k ≤ 4 ∨ k = 10 then v.getLsbD k else t.getLsbD k))
end

