-- ==== Sys2Proof/Laws/Memory.lean ====
section
/-! SUPPORT. Sparse memories: reading after writing, and that a write keeps the canonical form and the index range. -/

namespace Sys2Proof.Machine

variable {w : Nat}

/-! ## The canonical form -/

theorem wfFrom_cons {lo k : Nat} {v : BitVec w} {m : Store w} :
    Store.wfFrom lo ((k, v) :: m) = true ↔ lo ≤ k ∧ v ≠ 0 ∧ Store.wfFrom (k + 1) m = true := by
  simp [Store.wfFrom, and_assoc]

/-- The form from a larger index on is the form from a smaller one on. -/
theorem wfFrom_weaken {lo lo' : Nat} (h : lo' ≤ lo) : ∀ {m : Store w}, Store.wfFrom lo m = true →
    Store.wfFrom lo' m = true
  | [], _ => rfl
  | (k, v) :: m, hm => by
    rw [wfFrom_cons] at hm ⊢
    exact ⟨by omega, hm.2⟩

/-- A cell below the first index reads as zero. -/
theorem readCell_below {lo k : Nat} (hk : k < lo) : ∀ {m : Store w}, Store.wfFrom lo m = true → readCell m k = 0
  | [], _ => rfl
  | (k', v) :: m, hm => by
    obtain ⟨h1, -, h3⟩ := wfFrom_cons.mp hm
    have : k ≠ k' := by omega
    simp only [readCell, this, if_false]
    exact readCell_below (by omega) h3

theorem wfFrom_writeCell {k : Nat} {v : BitVec w} : ∀ {lo : Nat} {m : Store w}, lo ≤ k →
    Store.wfFrom lo m = true → Store.wfFrom lo (writeCell m k v) = true
  | lo, [], hk, _ => by
    simp only [writeCell]
    split
    · rfl
    · exact wfFrom_cons.mpr ⟨hk, ‹_›, rfl⟩
  | lo, (k', v') :: m, hk, hm => by
    obtain ⟨h1, h2, h3⟩ := wfFrom_cons.mp hm
    simp only [writeCell]
    split
    · rename_i hlt
      split
      · exact hm
      · rename_i hv
        exact wfFrom_cons.mpr ⟨hk, hv, wfFrom_cons.mpr ⟨by omega, h2, h3⟩⟩
    · split
      · rename_i hge heq
        subst heq
        split
        · exact wfFrom_weaken (by omega) h3
        · rename_i hv
          exact wfFrom_cons.mpr ⟨hk, hv, h3⟩
      · rename_i hge hne
        exact wfFrom_cons.mpr ⟨h1, h2, wfFrom_writeCell (by omega) h3⟩

/-- A write keeps the canonical form. -/
theorem wf_writeCell {k : Nat} {v : BitVec w} {m : Store w} (h : Store.wf m = true) :
    Store.wf (writeCell m k v) = true :=
  wfFrom_writeCell (Nat.zero_le k) h

/-- The entries after a write are the written one and old ones. -/
theorem mem_writeCell {k k' : Nat} {v v' : BitVec w} : ∀ {m : Store w}, (k', v') ∈ writeCell m k v →
    k' = k ∨ (k', v') ∈ m
  | [], h => by
    simp only [writeCell] at h
    split at h
    · exact .inr h
    · exact .inl (congrArg Prod.fst (List.mem_singleton.mp h))
  | (j, u) :: m, h => by
    simp only [writeCell] at h
    split at h
    · split at h
      · exact .inr h
      · rcases List.mem_cons.mp h with h | h
        · exact .inl (by simpa using congrArg Prod.fst h)
        · exact .inr h
    · split at h
      · split at h
        · exact .inr (List.mem_cons_of_mem _ h)
        · rcases List.mem_cons.mp h with h | h
          · exact .inl (by simpa using congrArg Prod.fst h)
          · exact .inr (List.mem_cons_of_mem _ h)
      · rcases List.mem_cons.mp h with h | h
        · exact .inr (h ▸ List.mem_cons_self)
        · rcases mem_writeCell h with h | h
          · exact .inl h
          · exact .inr (List.mem_cons_of_mem _ h)

/-- A write below the size keeps the canonical form and the range. -/
theorem within_writeCell {size k : Nat} {v : BitVec w} {m : Store w} (hk : k < size) (h : Store.within size m) :
    Store.within size (writeCell m k v) :=
  ⟨wf_writeCell h.1, fun j u hj => (mem_writeCell hj).elim (fun e => e ▸ hk) (h.2 j u)⟩

theorem within_nil (size : Nat) : Store.within size ([] : Store w) := ⟨rfl, by simp⟩

/-! ## Read after write -/

/-- Another cell reads as before. -/
theorem readCell_writeCell_other {k j : Nat} {v : BitVec w} (h : j ≠ k) : ∀ {m : Store w},
    readCell (writeCell m k v) j = readCell m j
  | [] => by
    simp only [writeCell]
    split <;> simp [readCell, h]
  | (k', v') :: m => by
    simp only [writeCell]
    split
    · split
      · rfl
      · simp [readCell, h]
    · split
      · rename_i heq
        subst heq
        split <;> simp [readCell, h]
      · simp only [readCell]
        rw [readCell_writeCell_other h]

theorem readCell_writeCell_sameFrom {k : Nat} {v : BitVec w} : ∀ {lo : Nat} {m : Store w},
    Store.wfFrom lo m = true → readCell (writeCell m k v) k = v
  | _, [], _ => by
    simp only [writeCell]
    split
    · exact Eq.symm ‹_›
    · simp [readCell]
  | lo, (k', v') :: m, hm => by
    obtain ⟨-, -, h3⟩ := wfFrom_cons.mp hm
    simp only [writeCell]
    split
    · rename_i hlt
      split
      · rename_i hv
        subst hv
        have : k ≠ k' := by omega
        simp only [readCell, this, if_false]
        exact readCell_below (by omega) h3
      · simp [readCell]
    · split
      · rename_i heq
        subst heq
        split
        · rename_i hv
          subst hv
          exact readCell_below (by omega) h3
        · simp [readCell]
      · rename_i hne
        simp only [readCell, hne, if_false]
        exact readCell_writeCell_sameFrom h3

/-- The written cell reads as the written value. -/
theorem readCell_writeCell_same {k : Nat} {v : BitVec w} {m : Store w} (h : Store.wf m = true) :
    readCell (writeCell m k v) k = v :=
  readCell_writeCell_sameFrom h

/-- Reading any cell after a write. -/
theorem readCell_writeCell {k j : Nat} {v : BitVec w} {m : Store w} (h : Store.wf m = true) :
    readCell (writeCell m k v) j = if j = k then v else readCell m j := by
  split
  · rename_i e
    subst e
    exact readCell_writeCell_same h
  · exact readCell_writeCell_other ‹_›

/-! ## A memory made of a list of bytes -/

theorem wfFrom_memoryOfBytes : ∀ (base : Nat) (l : List Byte), Store.wfFrom base (memoryOfBytes base l) = true
  | _, [] => rfl
  | base, v :: l => by
    simp only [memoryOfBytes]
    split
    · exact wfFrom_weaken (Nat.le_succ base) (wfFrom_memoryOfBytes (base + 1) l)
    · rename_i hv
      exact wfFrom_cons.mpr ⟨Nat.le_refl _, hv, wfFrom_memoryOfBytes (base + 1) l⟩

theorem mem_memoryOfBytes {k : Nat} {v : Byte} : ∀ {base : Nat} {l : List Byte}, (k, v) ∈ memoryOfBytes base l →
    base ≤ k ∧ k < base + l.length
  | _, [], h => by simp [memoryOfBytes] at h
  | base, u :: l, h => by
    simp only [memoryOfBytes] at h
    have step : ∀ {k v}, (k, v) ∈ memoryOfBytes (base + 1) l → base ≤ k ∧ k < base + (u :: l).length := by
      intro k v hk
      have := mem_memoryOfBytes hk
      simp only [List.length_cons]
      omega
    split at h
    · exact step h
    · rcases List.mem_cons.mp h with h | h
      · have : k = base := by simpa using congrArg Prod.fst h
        simp [this]
      · exact step h

/-- Cell `base + k` is byte `k` of the list. -/
theorem readCell_memoryOfBytes : ∀ (base : Nat) (l : List Byte) (k : Nat),
    readCell (memoryOfBytes base l) (base + k) = l.getD k 0
  | _, [], _ => by simp [memoryOfBytes, readCell]
  | base, v :: l, 0 => by
    simp only [memoryOfBytes]
    split
    · rename_i hv
      subst hv
      exact (readCell_below (by omega) (wfFrom_memoryOfBytes (base + 1) l)).trans rfl
    · simp [readCell]
  | base, v :: l, k + 1 => by
    have ih := readCell_memoryOfBytes (base + 1) l k
    have e : base + (k + 1) = base + 1 + k := by omega
    simp only [memoryOfBytes]
    split
    · rw [e, ih]
      rfl
    · have : base + (k + 1) ≠ base := by omega
      simp only [readCell, this, if_false]
      rw [e, ih]
      rfl

end Sys2Proof.Machine
end

