-- ==== Sys2Proof/Laws/State.lean ====
section
/-! SUPPORT. One lemma per field per update of the CPU and of the machine, each true by unfolding. -/

namespace Sys2Proof.Machine

/-! ### `setNZ` -/

@[simp] theorem setNZ_a (v : Byte) (c : Cpu) : (setNZ v c).a = c.a := rfl
@[simp] theorem setNZ_x (v : Byte) (c : Cpu) : (setNZ v c).x = c.x := rfl
@[simp] theorem setNZ_y (v : Byte) (c : Cpu) : (setNZ v c).y = c.y := rfl
@[simp] theorem setNZ_s (v : Byte) (c : Cpu) : (setNZ v c).s = c.s := rfl
@[simp] theorem setNZ_pc (v : Byte) (c : Cpu) : (setNZ v c).pc = c.pc := rfl
@[simp] theorem setNZ_nmiPending (v : Byte) (c : Cpu) : (setNZ v c).nmiPending = c.nmiPending := rfl
@[simp] theorem setNZ_halted (v : Byte) (c : Cpu) : (setNZ v c).halted = c.halted := rfl
@[simp] theorem setNZ_haltCause (v : Byte) (c : Cpu) : (setNZ v c).haltCause = c.haltCause := rfl
@[simp] theorem setNZ_cycles (v : Byte) (c : Cpu) : (setNZ v c).cycles = c.cycles := rfl
@[simp] theorem setNZ_p_c (v : Byte) (c : Cpu) : (setNZ v c).p.c = c.p.c := rfl
@[simp] theorem setNZ_p_z (v : Byte) (c : Cpu) : (setNZ v c).p.z = (v == 0) := rfl
@[simp] theorem setNZ_p_i (v : Byte) (c : Cpu) : (setNZ v c).p.i = c.p.i := rfl
@[simp] theorem setNZ_p_d (v : Byte) (c : Cpu) : (setNZ v c).p.d = c.p.d := rfl
@[simp] theorem setNZ_p_b (v : Byte) (c : Cpu) : (setNZ v c).p.b = c.p.b := rfl
@[simp] theorem setNZ_p_v (v : Byte) (c : Cpu) : (setNZ v c).p.v = c.p.v := rfl
@[simp] theorem setNZ_p_n (v : Byte) (c : Cpu) : (setNZ v c).p.n = bit7 v := rfl

/-! ### `setC` -/

@[simp] theorem setC_a (f : Bool) (c : Cpu) : (setC f c).a = c.a := rfl
@[simp] theorem setC_x (f : Bool) (c : Cpu) : (setC f c).x = c.x := rfl
@[simp] theorem setC_y (f : Bool) (c : Cpu) : (setC f c).y = c.y := rfl
@[simp] theorem setC_s (f : Bool) (c : Cpu) : (setC f c).s = c.s := rfl
@[simp] theorem setC_pc (f : Bool) (c : Cpu) : (setC f c).pc = c.pc := rfl
@[simp] theorem setC_nmiPending (f : Bool) (c : Cpu) : (setC f c).nmiPending = c.nmiPending := rfl
@[simp] theorem setC_halted (f : Bool) (c : Cpu) : (setC f c).halted = c.halted := rfl
@[simp] theorem setC_haltCause (f : Bool) (c : Cpu) : (setC f c).haltCause = c.haltCause := rfl
@[simp] theorem setC_cycles (f : Bool) (c : Cpu) : (setC f c).cycles = c.cycles := rfl
@[simp] theorem setC_p_c (f : Bool) (c : Cpu) : (setC f c).p.c = f := rfl
@[simp] theorem setC_p_z (f : Bool) (c : Cpu) : (setC f c).p.z = c.p.z := rfl
@[simp] theorem setC_p_i (f : Bool) (c : Cpu) : (setC f c).p.i = c.p.i := rfl
@[simp] theorem setC_p_d (f : Bool) (c : Cpu) : (setC f c).p.d = c.p.d := rfl
@[simp] theorem setC_p_b (f : Bool) (c : Cpu) : (setC f c).p.b = c.p.b := rfl
@[simp] theorem setC_p_v (f : Bool) (c : Cpu) : (setC f c).p.v = c.p.v := rfl
@[simp] theorem setC_p_n (f : Bool) (c : Cpu) : (setC f c).p.n = c.p.n := rfl

/-! ### `setV` -/

@[simp] theorem setV_a (f : Bool) (c : Cpu) : (setV f c).a = c.a := rfl
@[simp] theorem setV_x (f : Bool) (c : Cpu) : (setV f c).x = c.x := rfl
@[simp] theorem setV_y (f : Bool) (c : Cpu) : (setV f c).y = c.y := rfl
@[simp] theorem setV_s (f : Bool) (c : Cpu) : (setV f c).s = c.s := rfl
@[simp] theorem setV_pc (f : Bool) (c : Cpu) : (setV f c).pc = c.pc := rfl
@[simp] theorem setV_nmiPending (f : Bool) (c : Cpu) : (setV f c).nmiPending = c.nmiPending := rfl
@[simp] theorem setV_halted (f : Bool) (c : Cpu) : (setV f c).halted = c.halted := rfl
@[simp] theorem setV_haltCause (f : Bool) (c : Cpu) : (setV f c).haltCause = c.haltCause := rfl
@[simp] theorem setV_cycles (f : Bool) (c : Cpu) : (setV f c).cycles = c.cycles := rfl
@[simp] theorem setV_p_c (f : Bool) (c : Cpu) : (setV f c).p.c = c.p.c := rfl
@[simp] theorem setV_p_z (f : Bool) (c : Cpu) : (setV f c).p.z = c.p.z := rfl
@[simp] theorem setV_p_i (f : Bool) (c : Cpu) : (setV f c).p.i = c.p.i := rfl
@[simp] theorem setV_p_d (f : Bool) (c : Cpu) : (setV f c).p.d = c.p.d := rfl
@[simp] theorem setV_p_b (f : Bool) (c : Cpu) : (setV f c).p.b = c.p.b := rfl
@[simp] theorem setV_p_v (f : Bool) (c : Cpu) : (setV f c).p.v = f := rfl
@[simp] theorem setV_p_n (f : Bool) (c : Cpu) : (setV f c).p.n = c.p.n := rfl

/-! ### `setI` -/

@[simp] theorem setI_a (f : Bool) (c : Cpu) : (setI f c).a = c.a := rfl
@[simp] theorem setI_x (f : Bool) (c : Cpu) : (setI f c).x = c.x := rfl
@[simp] theorem setI_y (f : Bool) (c : Cpu) : (setI f c).y = c.y := rfl
@[simp] theorem setI_s (f : Bool) (c : Cpu) : (setI f c).s = c.s := rfl
@[simp] theorem setI_pc (f : Bool) (c : Cpu) : (setI f c).pc = c.pc := rfl
@[simp] theorem setI_nmiPending (f : Bool) (c : Cpu) : (setI f c).nmiPending = c.nmiPending := rfl
@[simp] theorem setI_halted (f : Bool) (c : Cpu) : (setI f c).halted = c.halted := rfl
@[simp] theorem setI_haltCause (f : Bool) (c : Cpu) : (setI f c).haltCause = c.haltCause := rfl
@[simp] theorem setI_cycles (f : Bool) (c : Cpu) : (setI f c).cycles = c.cycles := rfl
@[simp] theorem setI_p_c (f : Bool) (c : Cpu) : (setI f c).p.c = c.p.c := rfl
@[simp] theorem setI_p_z (f : Bool) (c : Cpu) : (setI f c).p.z = c.p.z := rfl
@[simp] theorem setI_p_i (f : Bool) (c : Cpu) : (setI f c).p.i = f := rfl
@[simp] theorem setI_p_d (f : Bool) (c : Cpu) : (setI f c).p.d = c.p.d := rfl
@[simp] theorem setI_p_b (f : Bool) (c : Cpu) : (setI f c).p.b = c.p.b := rfl
@[simp] theorem setI_p_v (f : Bool) (c : Cpu) : (setI f c).p.v = c.p.v := rfl
@[simp] theorem setI_p_n (f : Bool) (c : Cpu) : (setI f c).p.n = c.p.n := rfl

/-! ### `setD` -/

@[simp] theorem setD_a (f : Bool) (c : Cpu) : (setD f c).a = c.a := rfl
@[simp] theorem setD_x (f : Bool) (c : Cpu) : (setD f c).x = c.x := rfl
@[simp] theorem setD_y (f : Bool) (c : Cpu) : (setD f c).y = c.y := rfl
@[simp] theorem setD_s (f : Bool) (c : Cpu) : (setD f c).s = c.s := rfl
@[simp] theorem setD_pc (f : Bool) (c : Cpu) : (setD f c).pc = c.pc := rfl
@[simp] theorem setD_nmiPending (f : Bool) (c : Cpu) : (setD f c).nmiPending = c.nmiPending := rfl
@[simp] theorem setD_halted (f : Bool) (c : Cpu) : (setD f c).halted = c.halted := rfl
@[simp] theorem setD_haltCause (f : Bool) (c : Cpu) : (setD f c).haltCause = c.haltCause := rfl
@[simp] theorem setD_cycles (f : Bool) (c : Cpu) : (setD f c).cycles = c.cycles := rfl
@[simp] theorem setD_p_c (f : Bool) (c : Cpu) : (setD f c).p.c = c.p.c := rfl
@[simp] theorem setD_p_z (f : Bool) (c : Cpu) : (setD f c).p.z = c.p.z := rfl
@[simp] theorem setD_p_i (f : Bool) (c : Cpu) : (setD f c).p.i = c.p.i := rfl
@[simp] theorem setD_p_d (f : Bool) (c : Cpu) : (setD f c).p.d = f := rfl
@[simp] theorem setD_p_b (f : Bool) (c : Cpu) : (setD f c).p.b = c.p.b := rfl
@[simp] theorem setD_p_v (f : Bool) (c : Cpu) : (setD f c).p.v = c.p.v := rfl
@[simp] theorem setD_p_n (f : Bool) (c : Cpu) : (setD f c).p.n = c.p.n := rfl

/-! ### `setA` -/

@[simp] theorem setA_a (v : Byte) (c : Cpu) : (setA v c).a = v := rfl
@[simp] theorem setA_x (v : Byte) (c : Cpu) : (setA v c).x = c.x := rfl
@[simp] theorem setA_y (v : Byte) (c : Cpu) : (setA v c).y = c.y := rfl
@[simp] theorem setA_s (v : Byte) (c : Cpu) : (setA v c).s = c.s := rfl
@[simp] theorem setA_pc (v : Byte) (c : Cpu) : (setA v c).pc = c.pc := rfl
@[simp] theorem setA_nmiPending (v : Byte) (c : Cpu) : (setA v c).nmiPending = c.nmiPending := rfl
@[simp] theorem setA_halted (v : Byte) (c : Cpu) : (setA v c).halted = c.halted := rfl
@[simp] theorem setA_haltCause (v : Byte) (c : Cpu) : (setA v c).haltCause = c.haltCause := rfl
@[simp] theorem setA_cycles (v : Byte) (c : Cpu) : (setA v c).cycles = c.cycles := rfl
@[simp] theorem setA_p_c (v : Byte) (c : Cpu) : (setA v c).p.c = c.p.c := rfl
@[simp] theorem setA_p_z (v : Byte) (c : Cpu) : (setA v c).p.z = c.p.z := rfl
@[simp] theorem setA_p_i (v : Byte) (c : Cpu) : (setA v c).p.i = c.p.i := rfl
@[simp] theorem setA_p_d (v : Byte) (c : Cpu) : (setA v c).p.d = c.p.d := rfl
@[simp] theorem setA_p_b (v : Byte) (c : Cpu) : (setA v c).p.b = c.p.b := rfl
@[simp] theorem setA_p_v (v : Byte) (c : Cpu) : (setA v c).p.v = c.p.v := rfl
@[simp] theorem setA_p_n (v : Byte) (c : Cpu) : (setA v c).p.n = c.p.n := rfl

/-! ### `setX` -/

@[simp] theorem setX_a (v : Byte) (c : Cpu) : (setX v c).a = c.a := rfl
@[simp] theorem setX_x (v : Byte) (c : Cpu) : (setX v c).x = v := rfl
@[simp] theorem setX_y (v : Byte) (c : Cpu) : (setX v c).y = c.y := rfl
@[simp] theorem setX_s (v : Byte) (c : Cpu) : (setX v c).s = c.s := rfl
@[simp] theorem setX_pc (v : Byte) (c : Cpu) : (setX v c).pc = c.pc := rfl
@[simp] theorem setX_nmiPending (v : Byte) (c : Cpu) : (setX v c).nmiPending = c.nmiPending := rfl
@[simp] theorem setX_halted (v : Byte) (c : Cpu) : (setX v c).halted = c.halted := rfl
@[simp] theorem setX_haltCause (v : Byte) (c : Cpu) : (setX v c).haltCause = c.haltCause := rfl
@[simp] theorem setX_cycles (v : Byte) (c : Cpu) : (setX v c).cycles = c.cycles := rfl
@[simp] theorem setX_p_c (v : Byte) (c : Cpu) : (setX v c).p.c = c.p.c := rfl
@[simp] theorem setX_p_z (v : Byte) (c : Cpu) : (setX v c).p.z = c.p.z := rfl
@[simp] theorem setX_p_i (v : Byte) (c : Cpu) : (setX v c).p.i = c.p.i := rfl
@[simp] theorem setX_p_d (v : Byte) (c : Cpu) : (setX v c).p.d = c.p.d := rfl
@[simp] theorem setX_p_b (v : Byte) (c : Cpu) : (setX v c).p.b = c.p.b := rfl
@[simp] theorem setX_p_v (v : Byte) (c : Cpu) : (setX v c).p.v = c.p.v := rfl
@[simp] theorem setX_p_n (v : Byte) (c : Cpu) : (setX v c).p.n = c.p.n := rfl

/-! ### `setY` -/

@[simp] theorem setY_a (v : Byte) (c : Cpu) : (setY v c).a = c.a := rfl
@[simp] theorem setY_x (v : Byte) (c : Cpu) : (setY v c).x = c.x := rfl
@[simp] theorem setY_y (v : Byte) (c : Cpu) : (setY v c).y = v := rfl
@[simp] theorem setY_s (v : Byte) (c : Cpu) : (setY v c).s = c.s := rfl
@[simp] theorem setY_pc (v : Byte) (c : Cpu) : (setY v c).pc = c.pc := rfl
@[simp] theorem setY_nmiPending (v : Byte) (c : Cpu) : (setY v c).nmiPending = c.nmiPending := rfl
@[simp] theorem setY_halted (v : Byte) (c : Cpu) : (setY v c).halted = c.halted := rfl
@[simp] theorem setY_haltCause (v : Byte) (c : Cpu) : (setY v c).haltCause = c.haltCause := rfl
@[simp] theorem setY_cycles (v : Byte) (c : Cpu) : (setY v c).cycles = c.cycles := rfl
@[simp] theorem setY_p_c (v : Byte) (c : Cpu) : (setY v c).p.c = c.p.c := rfl
@[simp] theorem setY_p_z (v : Byte) (c : Cpu) : (setY v c).p.z = c.p.z := rfl
@[simp] theorem setY_p_i (v : Byte) (c : Cpu) : (setY v c).p.i = c.p.i := rfl
@[simp] theorem setY_p_d (v : Byte) (c : Cpu) : (setY v c).p.d = c.p.d := rfl
@[simp] theorem setY_p_b (v : Byte) (c : Cpu) : (setY v c).p.b = c.p.b := rfl
@[simp] theorem setY_p_v (v : Byte) (c : Cpu) : (setY v c).p.v = c.p.v := rfl
@[simp] theorem setY_p_n (v : Byte) (c : Cpu) : (setY v c).p.n = c.p.n := rfl

/-! ### `setS` -/

@[simp] theorem setS_a (v : Byte) (c : Cpu) : (setS v c).a = c.a := rfl
@[simp] theorem setS_x (v : Byte) (c : Cpu) : (setS v c).x = c.x := rfl
@[simp] theorem setS_y (v : Byte) (c : Cpu) : (setS v c).y = c.y := rfl
@[simp] theorem setS_s (v : Byte) (c : Cpu) : (setS v c).s = v := rfl
@[simp] theorem setS_pc (v : Byte) (c : Cpu) : (setS v c).pc = c.pc := rfl
@[simp] theorem setS_nmiPending (v : Byte) (c : Cpu) : (setS v c).nmiPending = c.nmiPending := rfl
@[simp] theorem setS_halted (v : Byte) (c : Cpu) : (setS v c).halted = c.halted := rfl
@[simp] theorem setS_haltCause (v : Byte) (c : Cpu) : (setS v c).haltCause = c.haltCause := rfl
@[simp] theorem setS_cycles (v : Byte) (c : Cpu) : (setS v c).cycles = c.cycles := rfl
@[simp] theorem setS_p_c (v : Byte) (c : Cpu) : (setS v c).p.c = c.p.c := rfl
@[simp] theorem setS_p_z (v : Byte) (c : Cpu) : (setS v c).p.z = c.p.z := rfl
@[simp] theorem setS_p_i (v : Byte) (c : Cpu) : (setS v c).p.i = c.p.i := rfl
@[simp] theorem setS_p_d (v : Byte) (c : Cpu) : (setS v c).p.d = c.p.d := rfl
@[simp] theorem setS_p_b (v : Byte) (c : Cpu) : (setS v c).p.b = c.p.b := rfl
@[simp] theorem setS_p_v (v : Byte) (c : Cpu) : (setS v c).p.v = c.p.v := rfl
@[simp] theorem setS_p_n (v : Byte) (c : Cpu) : (setS v c).p.n = c.p.n := rfl

/-! ### `setPc` -/

@[simp] theorem setPc_a (w : Word) (c : Cpu) : (setPc w c).a = c.a := rfl
@[simp] theorem setPc_x (w : Word) (c : Cpu) : (setPc w c).x = c.x := rfl
@[simp] theorem setPc_y (w : Word) (c : Cpu) : (setPc w c).y = c.y := rfl
@[simp] theorem setPc_s (w : Word) (c : Cpu) : (setPc w c).s = c.s := rfl
@[simp] theorem setPc_pc (w : Word) (c : Cpu) : (setPc w c).pc = w := rfl
@[simp] theorem setPc_nmiPending (w : Word) (c : Cpu) : (setPc w c).nmiPending = c.nmiPending := rfl
@[simp] theorem setPc_halted (w : Word) (c : Cpu) : (setPc w c).halted = c.halted := rfl
@[simp] theorem setPc_haltCause (w : Word) (c : Cpu) : (setPc w c).haltCause = c.haltCause := rfl
@[simp] theorem setPc_cycles (w : Word) (c : Cpu) : (setPc w c).cycles = c.cycles := rfl
@[simp] theorem setPc_p_c (w : Word) (c : Cpu) : (setPc w c).p.c = c.p.c := rfl
@[simp] theorem setPc_p_z (w : Word) (c : Cpu) : (setPc w c).p.z = c.p.z := rfl
@[simp] theorem setPc_p_i (w : Word) (c : Cpu) : (setPc w c).p.i = c.p.i := rfl
@[simp] theorem setPc_p_d (w : Word) (c : Cpu) : (setPc w c).p.d = c.p.d := rfl
@[simp] theorem setPc_p_b (w : Word) (c : Cpu) : (setPc w c).p.b = c.p.b := rfl
@[simp] theorem setPc_p_v (w : Word) (c : Cpu) : (setPc w c).p.v = c.p.v := rfl
@[simp] theorem setPc_p_n (w : Word) (c : Cpu) : (setPc w c).p.n = c.p.n := rfl

/-! ### `loadA` -/

@[simp] theorem loadA_a (v : Byte) (c : Cpu) : (loadA v c).a = v := rfl
@[simp] theorem loadA_x (v : Byte) (c : Cpu) : (loadA v c).x = c.x := rfl
@[simp] theorem loadA_y (v : Byte) (c : Cpu) : (loadA v c).y = c.y := rfl
@[simp] theorem loadA_s (v : Byte) (c : Cpu) : (loadA v c).s = c.s := rfl
@[simp] theorem loadA_pc (v : Byte) (c : Cpu) : (loadA v c).pc = c.pc := rfl
@[simp] theorem loadA_nmiPending (v : Byte) (c : Cpu) : (loadA v c).nmiPending = c.nmiPending := rfl
@[simp] theorem loadA_halted (v : Byte) (c : Cpu) : (loadA v c).halted = c.halted := rfl
@[simp] theorem loadA_haltCause (v : Byte) (c : Cpu) : (loadA v c).haltCause = c.haltCause := rfl
@[simp] theorem loadA_cycles (v : Byte) (c : Cpu) : (loadA v c).cycles = c.cycles := rfl
@[simp] theorem loadA_p_c (v : Byte) (c : Cpu) : (loadA v c).p.c = c.p.c := rfl
@[simp] theorem loadA_p_z (v : Byte) (c : Cpu) : (loadA v c).p.z = (v == 0) := rfl
@[simp] theorem loadA_p_i (v : Byte) (c : Cpu) : (loadA v c).p.i = c.p.i := rfl
@[simp] theorem loadA_p_d (v : Byte) (c : Cpu) : (loadA v c).p.d = c.p.d := rfl
@[simp] theorem loadA_p_b (v : Byte) (c : Cpu) : (loadA v c).p.b = c.p.b := rfl
@[simp] theorem loadA_p_v (v : Byte) (c : Cpu) : (loadA v c).p.v = c.p.v := rfl
@[simp] theorem loadA_p_n (v : Byte) (c : Cpu) : (loadA v c).p.n = bit7 v := rfl

/-! ### `loadX` -/

@[simp] theorem loadX_a (v : Byte) (c : Cpu) : (loadX v c).a = c.a := rfl
@[simp] theorem loadX_x (v : Byte) (c : Cpu) : (loadX v c).x = v := rfl
@[simp] theorem loadX_y (v : Byte) (c : Cpu) : (loadX v c).y = c.y := rfl
@[simp] theorem loadX_s (v : Byte) (c : Cpu) : (loadX v c).s = c.s := rfl
@[simp] theorem loadX_pc (v : Byte) (c : Cpu) : (loadX v c).pc = c.pc := rfl
@[simp] theorem loadX_nmiPending (v : Byte) (c : Cpu) : (loadX v c).nmiPending = c.nmiPending := rfl
@[simp] theorem loadX_halted (v : Byte) (c : Cpu) : (loadX v c).halted = c.halted := rfl
@[simp] theorem loadX_haltCause (v : Byte) (c : Cpu) : (loadX v c).haltCause = c.haltCause := rfl
@[simp] theorem loadX_cycles (v : Byte) (c : Cpu) : (loadX v c).cycles = c.cycles := rfl
@[simp] theorem loadX_p_c (v : Byte) (c : Cpu) : (loadX v c).p.c = c.p.c := rfl
@[simp] theorem loadX_p_z (v : Byte) (c : Cpu) : (loadX v c).p.z = (v == 0) := rfl
@[simp] theorem loadX_p_i (v : Byte) (c : Cpu) : (loadX v c).p.i = c.p.i := rfl
@[simp] theorem loadX_p_d (v : Byte) (c : Cpu) : (loadX v c).p.d = c.p.d := rfl
@[simp] theorem loadX_p_b (v : Byte) (c : Cpu) : (loadX v c).p.b = c.p.b := rfl
@[simp] theorem loadX_p_v (v : Byte) (c : Cpu) : (loadX v c).p.v = c.p.v := rfl
@[simp] theorem loadX_p_n (v : Byte) (c : Cpu) : (loadX v c).p.n = bit7 v := rfl

/-! ### `loadY` -/

@[simp] theorem loadY_a (v : Byte) (c : Cpu) : (loadY v c).a = c.a := rfl
@[simp] theorem loadY_x (v : Byte) (c : Cpu) : (loadY v c).x = c.x := rfl
@[simp] theorem loadY_y (v : Byte) (c : Cpu) : (loadY v c).y = v := rfl
@[simp] theorem loadY_s (v : Byte) (c : Cpu) : (loadY v c).s = c.s := rfl
@[simp] theorem loadY_pc (v : Byte) (c : Cpu) : (loadY v c).pc = c.pc := rfl
@[simp] theorem loadY_nmiPending (v : Byte) (c : Cpu) : (loadY v c).nmiPending = c.nmiPending := rfl
@[simp] theorem loadY_halted (v : Byte) (c : Cpu) : (loadY v c).halted = c.halted := rfl
@[simp] theorem loadY_haltCause (v : Byte) (c : Cpu) : (loadY v c).haltCause = c.haltCause := rfl
@[simp] theorem loadY_cycles (v : Byte) (c : Cpu) : (loadY v c).cycles = c.cycles := rfl
@[simp] theorem loadY_p_c (v : Byte) (c : Cpu) : (loadY v c).p.c = c.p.c := rfl
@[simp] theorem loadY_p_z (v : Byte) (c : Cpu) : (loadY v c).p.z = (v == 0) := rfl
@[simp] theorem loadY_p_i (v : Byte) (c : Cpu) : (loadY v c).p.i = c.p.i := rfl
@[simp] theorem loadY_p_d (v : Byte) (c : Cpu) : (loadY v c).p.d = c.p.d := rfl
@[simp] theorem loadY_p_b (v : Byte) (c : Cpu) : (loadY v c).p.b = c.p.b := rfl
@[simp] theorem loadY_p_v (v : Byte) (c : Cpu) : (loadY v c).p.v = c.p.v := rfl
@[simp] theorem loadY_p_n (v : Byte) (c : Cpu) : (loadY v c).p.n = bit7 v := rfl

/-! ### `compareCore` -/

@[simp] theorem compareCore_a (r m : Byte) (c : Cpu) : (compareCore r m c).a = c.a := rfl
@[simp] theorem compareCore_x (r m : Byte) (c : Cpu) : (compareCore r m c).x = c.x := rfl
@[simp] theorem compareCore_y (r m : Byte) (c : Cpu) : (compareCore r m c).y = c.y := rfl
@[simp] theorem compareCore_s (r m : Byte) (c : Cpu) : (compareCore r m c).s = c.s := rfl
@[simp] theorem compareCore_pc (r m : Byte) (c : Cpu) : (compareCore r m c).pc = c.pc := rfl
@[simp] theorem compareCore_nmiPending (r m : Byte) (c : Cpu) : (compareCore r m c).nmiPending = c.nmiPending := rfl
@[simp] theorem compareCore_halted (r m : Byte) (c : Cpu) : (compareCore r m c).halted = c.halted := rfl
@[simp] theorem compareCore_haltCause (r m : Byte) (c : Cpu) : (compareCore r m c).haltCause = c.haltCause := rfl
@[simp] theorem compareCore_cycles (r m : Byte) (c : Cpu) : (compareCore r m c).cycles = c.cycles := rfl
@[simp] theorem compareCore_p_c (r m : Byte) (c : Cpu) : (compareCore r m c).p.c = decide (m ≤ r) := rfl
@[simp] theorem compareCore_p_z (r m : Byte) (c : Cpu) : (compareCore r m c).p.z = ((r - m) == 0) := rfl
@[simp] theorem compareCore_p_i (r m : Byte) (c : Cpu) : (compareCore r m c).p.i = c.p.i := rfl
@[simp] theorem compareCore_p_d (r m : Byte) (c : Cpu) : (compareCore r m c).p.d = c.p.d := rfl
@[simp] theorem compareCore_p_b (r m : Byte) (c : Cpu) : (compareCore r m c).p.b = c.p.b := rfl
@[simp] theorem compareCore_p_v (r m : Byte) (c : Cpu) : (compareCore r m c).p.v = c.p.v := rfl
@[simp] theorem compareCore_p_n (r m : Byte) (c : Cpu) : (compareCore r m c).p.n = bit7 (r - m) := rfl

/-! ### `bitTest` -/

@[simp] theorem bitTest_a (m : Byte) (c : Cpu) : (bitTest m c).a = c.a := rfl
@[simp] theorem bitTest_x (m : Byte) (c : Cpu) : (bitTest m c).x = c.x := rfl
@[simp] theorem bitTest_y (m : Byte) (c : Cpu) : (bitTest m c).y = c.y := rfl
@[simp] theorem bitTest_s (m : Byte) (c : Cpu) : (bitTest m c).s = c.s := rfl
@[simp] theorem bitTest_pc (m : Byte) (c : Cpu) : (bitTest m c).pc = c.pc := rfl
@[simp] theorem bitTest_nmiPending (m : Byte) (c : Cpu) : (bitTest m c).nmiPending = c.nmiPending := rfl
@[simp] theorem bitTest_halted (m : Byte) (c : Cpu) : (bitTest m c).halted = c.halted := rfl
@[simp] theorem bitTest_haltCause (m : Byte) (c : Cpu) : (bitTest m c).haltCause = c.haltCause := rfl
@[simp] theorem bitTest_cycles (m : Byte) (c : Cpu) : (bitTest m c).cycles = c.cycles := rfl
@[simp] theorem bitTest_p_c (m : Byte) (c : Cpu) : (bitTest m c).p.c = c.p.c := rfl
@[simp] theorem bitTest_p_z (m : Byte) (c : Cpu) : (bitTest m c).p.z = ((c.a &&& m) == 0) := rfl
@[simp] theorem bitTest_p_i (m : Byte) (c : Cpu) : (bitTest m c).p.i = c.p.i := rfl
@[simp] theorem bitTest_p_d (m : Byte) (c : Cpu) : (bitTest m c).p.d = c.p.d := rfl
@[simp] theorem bitTest_p_b (m : Byte) (c : Cpu) : (bitTest m c).p.b = c.p.b := rfl
@[simp] theorem bitTest_p_v (m : Byte) (c : Cpu) : (bitTest m c).p.v = m.getLsbD 6 := rfl
@[simp] theorem bitTest_p_n (m : Byte) (c : Cpu) : (bitTest m c).p.n = bit7 m := rfl

/-! ### `spent` -/

@[simp] theorem spent_a (k : Nat) (c : Cpu) : (spent k c).a = c.a := rfl
@[simp] theorem spent_x (k : Nat) (c : Cpu) : (spent k c).x = c.x := rfl
@[simp] theorem spent_y (k : Nat) (c : Cpu) : (spent k c).y = c.y := rfl
@[simp] theorem spent_s (k : Nat) (c : Cpu) : (spent k c).s = c.s := rfl
@[simp] theorem spent_pc (k : Nat) (c : Cpu) : (spent k c).pc = c.pc := rfl
@[simp] theorem spent_nmiPending (k : Nat) (c : Cpu) : (spent k c).nmiPending = c.nmiPending := rfl
@[simp] theorem spent_halted (k : Nat) (c : Cpu) : (spent k c).halted = c.halted := rfl
@[simp] theorem spent_haltCause (k : Nat) (c : Cpu) : (spent k c).haltCause = c.haltCause := rfl
@[simp] theorem spent_cycles (k : Nat) (c : Cpu) : (spent k c).cycles = c.cycles + k := rfl
@[simp] theorem spent_p_c (k : Nat) (c : Cpu) : (spent k c).p.c = c.p.c := rfl
@[simp] theorem spent_p_z (k : Nat) (c : Cpu) : (spent k c).p.z = c.p.z := rfl
@[simp] theorem spent_p_i (k : Nat) (c : Cpu) : (spent k c).p.i = c.p.i := rfl
@[simp] theorem spent_p_d (k : Nat) (c : Cpu) : (spent k c).p.d = c.p.d := rfl
@[simp] theorem spent_p_b (k : Nat) (c : Cpu) : (spent k c).p.b = c.p.b := rfl
@[simp] theorem spent_p_v (k : Nat) (c : Cpu) : (spent k c).p.v = c.p.v := rfl
@[simp] theorem spent_p_n (k : Nat) (c : Cpu) : (spent k c).p.n = c.p.n := rfl

/-! ### `mapCpu` -/

@[simp] theorem mapCpu_params (f : Cpu → Cpu) (s : State) : (mapCpu f s).params = s.params := rfl
@[simp] theorem mapCpu_cpu (f : Cpu → Cpu) (s : State) : (mapCpu f s).cpu = f s.cpu := rfl
@[simp] theorem mapCpu_bus (f : Cpu → Cpu) (s : State) : (mapCpu f s).bus = s.bus := rfl
@[simp] theorem mapCpu_ppu (f : Cpu → Cpu) (s : State) : (mapCpu f s).ppu = s.ppu := rfl
@[simp] theorem mapCpu_cart (f : Cpu → Cpu) (s : State) : (mapCpu f s).cart = s.cart := rfl
@[simp] theorem mapCpu_irqLine (f : Cpu → Cpu) (s : State) : (mapCpu f s).irqLine = s.irqLine := rfl
@[simp] theorem mapCpu_frameOut (f : Cpu → Cpu) (s : State) : (mapCpu f s).frameOut = s.frameOut := rfl
@[simp] theorem mapCpu_framesReturned (f : Cpu → Cpu) (s : State) : (mapCpu f s).framesReturned = s.framesReturned := rfl
@[simp] theorem mapCpu_draws (f : Cpu → Cpu) (s : State) : (mapCpu f s).draws = s.draws := rfl

/-! ### `charge` -/

@[simp] theorem charge_params (n : Nat) (s : State) : (charge n s).params = s.params := rfl
@[simp] theorem charge_cpu (n : Nat) (s : State) : (charge n s).cpu = spent n s.cpu := rfl
@[simp] theorem charge_bus (n : Nat) (s : State) : (charge n s).bus = s.bus := rfl
@[simp] theorem charge_ppu (n : Nat) (s : State) : (charge n s).ppu = s.ppu := rfl
@[simp] theorem charge_cart (n : Nat) (s : State) : (charge n s).cart = s.cart := rfl
@[simp] theorem charge_irqLine (n : Nat) (s : State) : (charge n s).irqLine = s.irqLine := rfl
@[simp] theorem charge_frameOut (n : Nat) (s : State) : (charge n s).frameOut = s.frameOut := rfl
@[simp] theorem charge_framesReturned (n : Nat) (s : State) : (charge n s).framesReturned = s.framesReturned := rfl
@[simp] theorem charge_draws (n : Nat) (s : State) : (charge n s).draws = s.draws := rfl

/-! ### `skip` -/

@[simp] theorem skip_params (n : Nat) (s : State) : (skip n s).params = s.params := rfl
@[simp] theorem skip_cpu (n : Nat) (s : State) : (skip n s).cpu = { s.cpu with pc := s.cpu.pc + BitVec.ofNat 16 n } := rfl
@[simp] theorem skip_bus (n : Nat) (s : State) : (skip n s).bus = s.bus := rfl
@[simp] theorem skip_ppu (n : Nat) (s : State) : (skip n s).ppu = s.ppu := rfl
@[simp] theorem skip_cart (n : Nat) (s : State) : (skip n s).cart = s.cart := rfl
@[simp] theorem skip_irqLine (n : Nat) (s : State) : (skip n s).irqLine = s.irqLine := rfl
@[simp] theorem skip_frameOut (n : Nat) (s : State) : (skip n s).frameOut = s.frameOut := rfl
@[simp] theorem skip_framesReturned (n : Nat) (s : State) : (skip n s).framesReturned = s.framesReturned := rfl
@[simp] theorem skip_draws (n : Nat) (s : State) : (skip n s).draws = s.draws := rfl

/-! ### `raiseHalt` -/

@[simp] theorem raiseHalt_params (pc0 : Word) (h : HaltCause) (s : State) : (raiseHalt pc0 h s).params = s.params := rfl
@[simp] theorem raiseHalt_cpu (pc0 : Word) (h : HaltCause) (s : State) : (raiseHalt pc0 h s).cpu = { s.cpu with pc := pc0, halted := true, haltCause := some h } := rfl
@[simp] theorem raiseHalt_bus (pc0 : Word) (h : HaltCause) (s : State) : (raiseHalt pc0 h s).bus = s.bus := rfl
@[simp] theorem raiseHalt_ppu (pc0 : Word) (h : HaltCause) (s : State) : (raiseHalt pc0 h s).ppu = s.ppu := rfl
@[simp] theorem raiseHalt_cart (pc0 : Word) (h : HaltCause) (s : State) : (raiseHalt pc0 h s).cart = s.cart := rfl
@[simp] theorem raiseHalt_irqLine (pc0 : Word) (h : HaltCause) (s : State) : (raiseHalt pc0 h s).irqLine = s.irqLine := rfl
@[simp] theorem raiseHalt_frameOut (pc0 : Word) (h : HaltCause) (s : State) : (raiseHalt pc0 h s).frameOut = s.frameOut := rfl
@[simp] theorem raiseHalt_framesReturned (pc0 : Word) (h : HaltCause) (s : State) : (raiseHalt pc0 h s).framesReturned = s.framesReturned := rfl
@[simp] theorem raiseHalt_draws (pc0 : Word) (h : HaltCause) (s : State) : (raiseHalt pc0 h s).draws = s.draws := rfl

/-! ### `clearNmiRequest` -/

@[simp] theorem clearNmiRequest_params (s : State) : (clearNmiRequest s).params = s.params := rfl
@[simp] theorem clearNmiRequest_cpu (s : State) : (clearNmiRequest s).cpu = s.cpu := rfl
@[simp] theorem clearNmiRequest_bus (s : State) : (clearNmiRequest s).bus = s.bus := rfl
@[simp] theorem clearNmiRequest_ppu (s : State) : (clearNmiRequest s).ppu = { s.ppu with nmiRequest := false } := rfl
@[simp] theorem clearNmiRequest_cart (s : State) : (clearNmiRequest s).cart = s.cart := rfl
@[simp] theorem clearNmiRequest_irqLine (s : State) : (clearNmiRequest s).irqLine = s.irqLine := rfl
@[simp] theorem clearNmiRequest_frameOut (s : State) : (clearNmiRequest s).frameOut = s.frameOut := rfl
@[simp] theorem clearNmiRequest_framesReturned (s : State) : (clearNmiRequest s).framesReturned = s.framesReturned := rfl
@[simp] theorem clearNmiRequest_draws (s : State) : (clearNmiRequest s).draws = s.draws := rfl

/-! ### `runDots` -/

@[simp] theorem runDots_params (n : Nat) (s : State) : (runDots n s).params = s.params := rfl
@[simp] theorem runDots_cpu (n : Nat) (s : State) : (runDots n s).cpu = s.cpu := rfl
@[simp] theorem runDots_bus (n : Nat) (s : State) : (runDots n s).bus = s.bus := rfl
@[simp] theorem runDots_ppu (n : Nat) (s : State) : (runDots n s).ppu = ppuDots s.cart n s.ppu := rfl
@[simp] theorem runDots_cart (n : Nat) (s : State) : (runDots n s).cart = s.cart := rfl
@[simp] theorem runDots_irqLine (n : Nat) (s : State) : (runDots n s).irqLine = s.irqLine := rfl
@[simp] theorem runDots_frameOut (n : Nat) (s : State) : (runDots n s).frameOut = s.frameOut := rfl
@[simp] theorem runDots_framesReturned (n : Nat) (s : State) : (runDots n s).framesReturned = s.framesReturned := rfl
@[simp] theorem runDots_draws (n : Nat) (s : State) : (runDots n s).draws = s.draws := rfl

/-! ### `supplyButtons` -/

@[simp] theorem supplyButtons_params (b1 b2 : Byte) (s : State) : (supplyButtons b1 b2 s).params = s.params := rfl
@[simp] theorem supplyButtons_cpu (b1 b2 : Byte) (s : State) : (supplyButtons b1 b2 s).cpu = s.cpu := rfl
@[simp] theorem supplyButtons_bus (b1 b2 : Byte) (s : State) : (supplyButtons b1 b2 s).bus = { s.bus with buttons1 := b1, buttons2 := b2 } := rfl
@[simp] theorem supplyButtons_ppu (b1 b2 : Byte) (s : State) : (supplyButtons b1 b2 s).ppu = s.ppu := rfl
@[simp] theorem supplyButtons_cart (b1 b2 : Byte) (s : State) : (supplyButtons b1 b2 s).cart = s.cart := rfl
@[simp] theorem supplyButtons_irqLine (b1 b2 : Byte) (s : State) : (supplyButtons b1 b2 s).irqLine = s.irqLine := rfl
@[simp] theorem supplyButtons_frameOut (b1 b2 : Byte) (s : State) : (supplyButtons b1 b2 s).frameOut = s.frameOut := rfl
@[simp] theorem supplyButtons_framesReturned (b1 b2 : Byte) (s : State) : (supplyButtons b1 b2 s).framesReturned = s.framesReturned := rfl
@[simp] theorem supplyButtons_draws (b1 b2 : Byte) (s : State) : (supplyButtons b1 b2 s).draws = s.draws := rfl

end Sys2Proof.Machine
end

