-- ==== Sys2Proof/Laws/Bus.lean ====
section
/-! SUPPORT. What a bus access can change: never the CPU; what it gives and does, by address range. -/

namespace Sys2Proof.Machine

/-! ## PPU registers -/

theorem dataRead_st (s : State) : ∃ p, (dataRead s).st = { s with ppu := p } := by
  unfold dataRead
  dsimp only
  split <;> exact ⟨_, rfl⟩

/-- A read of the register window changes the PPU and the open-bus counter only. -/
theorem ppuRegRead_st (a : Word) (s : State) : ∃ p d, (ppuRegRead a s).st = { s with ppu := p, draws := d } := by
  unfold ppuRegRead
  split
  · exact ⟨_, _, rfl⟩
  split
  · exact ⟨s.ppu, s.draws, rfl⟩
  split
  · obtain ⟨p, h⟩ := dataRead_st s
    exact ⟨p, s.draws, h⟩
  · exact ⟨s.ppu, _, rfl⟩

/-- A write in the PPU's own space changes graphics RAM or the PPU. -/
theorem ppuWrite_eq (a : Word) (d : Byte) (s : State) :
    (a &&& 0x3FFF < 0x2000 ∧ ppuWrite a d s = { s with cart := cartPpuWrite s.cart (a &&& 0x3FFF) d }) ∨
    ∃ p, ppuWrite a d s = { s with ppu := p } := by
  unfold ppuWrite
  dsimp only
  split
  · exact .inl ⟨‹_›, rfl⟩
  split <;> exact .inr ⟨_, rfl⟩

theorem cartPpuWrite_eq (c : Cartridge) (a : Word) (d : Byte) : ∃ m, cartPpuWrite c a d = { c with chr := m } := by
  unfold cartPpuWrite
  split
  · exact ⟨_, rfl⟩
  · exact ⟨c.chr, rfl⟩

/-- A write of the register window changes the PPU and graphics RAM only. -/
theorem ppuRegWrite_st (a : Word) (v : Byte) (s : State) :
    ∃ p m, ppuRegWrite a v s = { s with ppu := p, cart := { s.cart with chr := m } } := by
  unfold ppuRegWrite
  split
  · exact ⟨_, s.cart.chr, rfl⟩
  split
  · exact ⟨_, s.cart.chr, rfl⟩
  split
  · exact ⟨s.ppu, s.cart.chr, rfl⟩
  split
  · exact ⟨_, s.cart.chr, rfl⟩
  split
  · exact ⟨_, s.cart.chr, rfl⟩
  split
  · exact ⟨_, s.cart.chr, rfl⟩
  split
  · exact ⟨_, s.cart.chr, rfl⟩
  · unfold dataWrite
    dsimp only
    rcases ppuWrite_eq (dataAddress s.ppu) v s with ⟨-, h⟩ | ⟨p, h⟩
    · obtain ⟨m, hm⟩ := cartPpuWrite_eq s.cart (dataAddress s.ppu &&& 0x3FFF) v
      exact ⟨stepV s.ppu, m, by rw [h, hm]⟩
    · exact ⟨stepV p, s.cart.chr, by rw [h]⟩

/-! ## The controller ports -/

theorem port1Read_st (s : State) : ∃ r, (port1Read s).st = { s with bus := { s.bus with shift1 := r } } := by
  unfold port1Read
  split <;> exact ⟨_, rfl⟩

theorem port2Read_st (s : State) : ∃ r, (port2Read s).st = { s with bus := { s.bus with shift2 := r } } := by
  unfold port2Read
  split <;> exact ⟨_, rfl⟩

theorem strobeWrite_eq (v : Byte) (b : Bus) :
    ∃ h r1 r2, strobeWrite v b = { b with strobe := h, shift1 := r1, shift2 := r2 } := by
  unfold strobeWrite
  split
  · exact ⟨_, _, _, rfl⟩
  · exact ⟨_, b.shift1, b.shift2, rfl⟩

/-! ## The whole bus -/

/-- All a read can change: the PPU, the two controller shift registers, the open-bus counter. -/
theorem busRead_st (a : Word) (s : State) :
    ∃ p r1 r2 d, (busRead a s).st =
      { s with ppu := p, bus := { s.bus with shift1 := r1, shift2 := r2 }, draws := d } := by
  unfold busRead
  split
  · exact ⟨s.ppu, s.bus.shift1, s.bus.shift2, s.draws, rfl⟩
  split
  · obtain ⟨p, d, h⟩ := ppuRegRead_st a s
    exact ⟨p, s.bus.shift1, s.bus.shift2, d, h⟩
  split
  · obtain ⟨r, h⟩ := port1Read_st s
    exact ⟨s.ppu, r, s.bus.shift2, s.draws, h⟩
  split
  · obtain ⟨r, h⟩ := port2Read_st s
    exact ⟨s.ppu, s.bus.shift1, r, s.draws, h⟩
  split
  · exact ⟨s.ppu, s.bus.shift1, s.bus.shift2, s.draws, rfl⟩
  · exact ⟨s.ppu, s.bus.shift1, s.bus.shift2, _, rfl⟩

/-- All a write can change: RAM, the controller shift registers and strobe, the PPU, graphics RAM, the bank. -/
theorem busWrite_st (a : Word) (v : Byte) (s : State) :
    ∃ p m k r1 r2 h ram, busWrite a v s =
      { s with
        ppu := p, cart := { s.cart with chr := m, bank := k }
        bus := { s.bus with ram := ram, strobe := h, shift1 := r1, shift2 := r2 } } := by
  unfold busWrite
  split
  · exact ⟨s.ppu, s.cart.chr, s.cart.bank, s.bus.shift1, s.bus.shift2, s.bus.strobe, _, rfl⟩
  split
  · obtain ⟨p, m, h⟩ := ppuRegWrite_st a v s
    exact ⟨p, m, s.cart.bank, s.bus.shift1, s.bus.shift2, s.bus.strobe, s.bus.ram, h⟩
  split
  · obtain ⟨h, r1, r2, e⟩ := strobeWrite_eq v s.bus
    exact ⟨s.ppu, s.cart.chr, s.cart.bank, r1, r2, h, s.bus.ram, by rw [e]⟩
  split
  · exact ⟨s.ppu, s.cart.chr, s.cart.bank, s.bus.shift1, s.bus.shift2, s.bus.strobe, s.bus.ram, rfl⟩
  · unfold cartCpuWrite
    split
    · exact ⟨s.ppu, s.cart.chr, s.cart.bank, s.bus.shift1, s.bus.shift2, s.bus.strobe, s.bus.ram, rfl⟩
    split
    · exact ⟨s.ppu, s.cart.chr, s.cart.bank, s.bus.shift1, s.bus.shift2, s.bus.strobe, s.bus.ram, rfl⟩
    · exact ⟨s.ppu, s.cart.chr, _, s.bus.shift1, s.bus.shift2, s.bus.strobe, s.bus.ram, rfl⟩

@[simp] theorem busRead_cpu (a : Word) (s : State) : (busRead a s).st.cpu = s.cpu := by
  obtain ⟨_, _, _, _, h⟩ := busRead_st a s
  rw [h]

@[simp] theorem busRead_params (a : Word) (s : State) : (busRead a s).st.params = s.params := by
  obtain ⟨_, _, _, _, h⟩ := busRead_st a s
  rw [h]

@[simp] theorem busRead_cart (a : Word) (s : State) : (busRead a s).st.cart = s.cart := by
  obtain ⟨_, _, _, _, h⟩ := busRead_st a s
  rw [h]

@[simp] theorem busRead_ram_unchanged (a : Word) (s : State) : (busRead a s).st.bus.ram = s.bus.ram := by
  obtain ⟨_, _, _, _, h⟩ := busRead_st a s
  rw [h]

@[simp] theorem busRead_irqLine (a : Word) (s : State) : (busRead a s).st.irqLine = s.irqLine := by
  obtain ⟨_, _, _, _, h⟩ := busRead_st a s
  rw [h]

@[simp] theorem busRead_frameOut (a : Word) (s : State) : (busRead a s).st.frameOut = s.frameOut := by
  obtain ⟨_, _, _, _, h⟩ := busRead_st a s
  rw [h]

@[simp] theorem busRead_framesReturned (a : Word) (s : State) :
    (busRead a s).st.framesReturned = s.framesReturned := by
  obtain ⟨_, _, _, _, h⟩ := busRead_st a s
  rw [h]

@[simp] theorem busWrite_cpu (a : Word) (v : Byte) (s : State) : (busWrite a v s).cpu = s.cpu := by
  obtain ⟨_, _, _, _, _, _, _, h⟩ := busWrite_st a v s
  rw [h]

@[simp] theorem busWrite_params (a : Word) (v : Byte) (s : State) : (busWrite a v s).params = s.params := by
  obtain ⟨_, _, _, _, _, _, _, h⟩ := busWrite_st a v s
  rw [h]

@[simp] theorem busWrite_irqLine (a : Word) (v : Byte) (s : State) : (busWrite a v s).irqLine = s.irqLine := by
  obtain ⟨_, _, _, _, _, _, _, h⟩ := busWrite_st a v s
  rw [h]

@[simp] theorem busWrite_frameOut (a : Word) (v : Byte) (s : State) : (busWrite a v s).frameOut = s.frameOut := by
  obtain ⟨_, _, _, _, _, _, _, h⟩ := busWrite_st a v s
  rw [h]

@[simp] theorem busWrite_framesReturned (a : Word) (v : Byte) (s : State) :
    (busWrite a v s).framesReturned = s.framesReturned := by
  obtain ⟨_, _, _, _, _, _, _, h⟩ := busWrite_st a v s
  rw [h]

@[simp] theorem busWrite_draws (a : Word) (v : Byte) (s : State) : (busWrite a v s).draws = s.draws := by
  obtain ⟨_, _, _, _, _, _, _, h⟩ := busWrite_st a v s
  rw [h]

/-! ## The CPU's registers do not take part in a bus access -/

/-- A read gives the same byte whatever the CPU's registers hold, and leaves them. -/
theorem busRead_setCpu (a : Word) (s : State) (c : Cpu) :
    busRead a { s with cpu := c } =
      { val := (busRead a s).val, st := { (busRead a s).st with cpu := c } } := by
  unfold busRead
  split
  · rfl
  split
  · unfold ppuRegRead
    split
    · rfl
    split
    · rfl
    split
    · unfold dataRead
      dsimp only
      split <;> rfl
    · rfl
  split
  · unfold port1Read
    dsimp only
    split <;> rfl
  split
  · unfold port2Read
    dsimp only
    split <;> rfl
  · dsimp only
    split <;> rfl

/-- A write does the same whatever the CPU's registers hold, and leaves them. -/
theorem busWrite_setCpu (a : Word) (v : Byte) (s : State) (c : Cpu) :
    busWrite a v { s with cpu := c } = { busWrite a v s with cpu := c } := by
  unfold busWrite
  split
  · rfl
  split
  · unfold ppuRegWrite
    split
    · rfl
    split
    · rfl
    split
    · rfl
    split
    · rfl
    split
    · rfl
    split
    · rfl
    split
    · rfl
    · unfold dataWrite ppuWrite
      dsimp only
      split
      · rfl
      split <;> rfl
  split
  · rfl
  split <;> rfl

/-! ## By address range -/

theorem ramIndex_lt (a : Word) : ramIndex a < 2048 := by
  rw [ramIndex, BitVec.toNat_and]
  exact Nat.lt_succ_of_le Nat.and_le_right

theorem ramIndex_eq_mod (a : Word) : ramIndex a = a.toNat % 2048 := by
  rw [ramIndex, BitVec.toNat_and]
  exact Nat.and_two_pow_sub_one_eq_mod a.toNat 11

theorem ramIndex_zeroPage (z : Byte) : ramIndex (zeroPage z) = z.toNat := by
  have := z.isLt
  rw [ramIndex_eq_mod, zeroPage, BitVec.toNat_setWidth]
  omega

theorem busRead_ram {a : Word} (h : a < 0x2000) (s : State) :
    busRead a s = { val := readCell s.bus.ram (ramIndex a), st := s } := by
  simp only [busRead, h, if_true]

theorem busWrite_ram {a : Word} (h : a < 0x2000) (v : Byte) (s : State) :
    busWrite a v s = { s with bus := { s.bus with ram := writeCell s.bus.ram (ramIndex a) v } } := by
  simp only [busWrite, h, if_true]

/-- From 0x4018 up, and from 0x4000 to 0x4015, the cartridge answers. -/
theorem busRead_cart_range {a : Word} (h : ¬a < 0x4000) (h1 : a ≠ 0x4016) (h2 : a ≠ 0x4017) (s : State) :
    busRead a s =
      match cartCpuRead s.cart a with
      | some v => { val := v, st := s }
      | none => openBusRead a s := by
  have h0 : ¬a < 0x2000 := by
    intro hlt
    exact h (BitVec.lt_trans hlt (by decide))
  exact (if_neg h0).trans ((if_neg h).trans ((if_neg h1).trans (if_neg h2)))

theorem prgIndex_some {c : Cartridge} {a : Word} (h : ¬a < 0x8000) : ∃ k, prgIndex c a = some k := by
  unfold prgIndex
  rw [if_neg h]
  split
  · exact ⟨_, rfl⟩
  · split <;> exact ⟨_, rfl⟩

theorem prgIndex_none {c : Cartridge} {a : Word} (h : a < 0x8000) : prgIndex c a = none := by
  unfold prgIndex
  rw [if_pos h]

/-- A read of a byte the model can see is that byte, without side effect. -/
theorem busRead_peek {a : Word} {v : Byte} {s : State} (h : peek a s = some v) :
    busRead a s = { val := v, st := s } := by
  unfold peek at h
  split at h
  · rw [busRead_ram ‹_›]
    simpa using h
  · by_cases h8 : a < 0x8000
    · simp [cartCpuRead, prgIndex_none h8] at h
    · have h4 : ¬a < 0x4000 := fun hlt => h8 (BitVec.lt_trans hlt (by decide))
      have h1 : a ≠ 0x4016 := by rintro rfl; exact h8 (by decide)
      have h2 : a ≠ 0x4017 := by rintro rfl; exact h8 (by decide)
      rw [busRead_cart_range h4 h1 h2, h]

/-- A read changes no byte the model can see. -/
@[simp] theorem peek_busRead (a b : Word) (s : State) : peek b (busRead a s).st = peek b s := by
  simp [peek]

/-- `peek` looks at RAM and the cartridge only. -/
theorem peek_congr {s t : State} (h1 : t.bus.ram = s.bus.ram) (h2 : t.cart.prg = s.cart.prg)
    (h3 : t.cart.nPrg = s.cart.nPrg) (h4 : t.cart.mapper = s.cart.mapper) (h5 : t.cart.bank = s.cart.bank)
    (b : Word) : peek b t = peek b s := by
  simp only [peek, cartCpuRead, prgIndex, h1, h2, h3, h4, h5]

/-- A write leaves every byte it does not disturb. -/
theorem peek_busWrite {a b : Word} {s : State} (v : Byte) (h : disturbs a b s = false) :
    peek b (busWrite a v s) = peek b s := by
  simp only [disturbs, Bool.or_eq_false_iff] at h
  obtain ⟨hram, hbank⟩ := h
  by_cases ha : a < 0x2000
  · rw [busWrite_ram ha]
    unfold peek
    split
    · rename_i hb
      have hne : ramIndex b ≠ ramIndex a := by
        rw [ramIndex_eq_mod, ramIndex_eq_mod]
        intro e
        simp only [ha, hb, e, decide_true, Bool.and_self, Bool.true_eq_false] at hram
      rw [readCell_writeCell_other hne]
    · rfl
  · unfold busWrite
    rw [if_neg ha]
    split
    · obtain ⟨p, m, e⟩ := ppuRegWrite_st a v s
      rw [e]
      rfl
    split
    · obtain ⟨x, r1, r2, e⟩ := strobeWrite_eq v s.bus
      rw [e]
      rfl
    split
    · rfl
    · unfold cartCpuWrite
      split
      · rfl
      · rename_i hm
        split
        · rfl
        · rename_i h8
          have h8' : 0x8000 ≤ a := by simpa using h8
          unfold peek
          split
          · rfl
          · simp only [hm, h8', decide_true, Bool.true_and, Bool.and_eq_false_iff, decide_eq_false_iff_not] at hbank
            simp only [cartCpuRead, prgIndex, hm]
            split
            · rfl
            · rename_i hb8
              have hbC : ¬b < 0xC000 := by
                rcases hbank with hb | hb
                · exact absurd (by simpa using hb8) hb
                · exact hb
              simp only [if_neg hbC]

end Sys2Proof.Machine
end

