-- ==== Sys2Proof/Laws/Dot.lean ====
section
/-! SUPPORT. What one dot of the PPU changes: the dot number goes up by one modulo a frame, the registers the CPU
writes stay, the memories keep their form and size, and the pieces of the composed pixel as numbers. -/

namespace Sys2Proof.Machine

/-! ## What the events of a dot leave alone -/

/-- The registers only the CPU writes, the counters and the memories no dot writes (51_ppu rules R350 to R368). -/
structure SameRegisters (p q : Ppu) : Prop where
  vram : q.vram = p.vram
  palette : q.palette = p.palette
  oam : q.oam = p.oam
  ctrl : q.ctrl = p.ctrl
  mask : q.mask = p.mask
  oamAddr : q.oamAddr = p.oamAddr
  t : q.t = p.t
  x : q.x = p.x
  w : q.w = p.w
  readBuffer : q.readBuffer = p.readBuffer
  scanline : q.scanline = p.scanline
  cycle : q.cycle = p.cycle
  frameReady : q.frameReady = p.frameReady

theorem SameRegisters.refl (p : Ppu) : SameRegisters p p :=
  ⟨rfl, rfl, rfl, rfl, rfl, rfl, rfl, rfl, rfl, rfl, rfl, rfl, rfl⟩

theorem SameRegisters.trans {p q r : Ppu} (h : SameRegisters p q) (h' : SameRegisters q r) : SameRegisters p r :=
  ⟨h'.1.trans h.1, h'.2.trans h.2, h'.3.trans h.3, h'.4.trans h.4, h'.5.trans h.5, h'.6.trans h.6, h'.7.trans h.7,
    h'.8.trans h.8, h'.9.trans h.9, h'.10.trans h.10, h'.11.trans h.11, h'.12.trans h.12, h'.13.trans h.13⟩

/-- A change of `v` and of the shift registers and latches only. -/
theorem SameRegisters.of_background {p q : Ppu} {v : BitVec 15} {b : Background} (h : q = { p with v := v, bg := b }) :
    SameRegisters p q := by
  subst h
  constructor <;> rfl

theorem flagEvents_eq (p : Ppu) : ∃ a b c d, flagEvents p =
    { p with vblank := a, nmiRequest := b, sprite0Hit := c, spriteOverflow := d } := by
  unfold flagEvents
  split
  · exact ⟨_, _, p.sprite0Hit, p.spriteOverflow, rfl⟩
  split
  · exact ⟨_, p.nmiRequest, p.sprite0Hit, p.spriteOverflow, rfl⟩
  split
  · exact ⟨p.vblank, p.nmiRequest, _, _, rfl⟩
  · exact ⟨p.vblank, p.nmiRequest, p.sprite0Hit, p.spriteOverflow, rfl⟩

theorem tileFetch_eq (c : Cartridge) (k : Nat) (p : Ppu) : ∃ v b, tileFetch c k p = { p with v := v, bg := b } := by
  unfold tileFetch
  split
  · exact ⟨p.v, _, rfl⟩
  split
  · exact ⟨p.v, _, rfl⟩
  split
  · exact ⟨p.v, _, rfl⟩
  split
  · exact ⟨p.v, _, rfl⟩
  split
  · exact ⟨_, p.bg, rfl⟩
  · exact ⟨p.v, p.bg, rfl⟩

theorem shiftAndFetch_eq (c : Cartridge) (p : Ppu) : ∃ v b, shiftAndFetch c p = { p with v := v, bg := b } := by
  unfold shiftAndFetch
  split
  · obtain ⟨v, b, h⟩ := tileFetch_eq c ((p.cycle - 1) % 8) { p with bg := shiftBackground p.bg }
    exact ⟨v, b, h⟩
  · exact ⟨p.v, p.bg, rfl⟩

theorem verticalStep_eq (p : Ppu) : ∃ v, verticalStep p = { p with v := v } := by
  unfold verticalStep
  split
  · exact ⟨_, rfl⟩
  · exact ⟨p.v, rfl⟩

theorem horizontalReload_eq (p : Ppu) : ∃ v b, horizontalReload p = { p with v := v, bg := b } := by
  unfold horizontalReload
  split
  · exact ⟨_, _, rfl⟩
  · exact ⟨p.v, p.bg, rfl⟩

theorem extraNametableFetch_eq (c : Cartridge) (p : Ppu) : ∃ b, extraNametableFetch c p = { p with bg := b } := by
  unfold extraNametableFetch
  split
  · exact ⟨_, rfl⟩
  · exact ⟨p.bg, rfl⟩

theorem verticalReload_eq (p : Ppu) : ∃ v, verticalReload p = { p with v := v } := by
  unfold verticalReload
  split
  · exact ⟨_, rfl⟩
  · exact ⟨p.v, rfl⟩

/-- The background pipeline changes `v` and its own shift registers and latches only. -/
theorem backgroundEvent_eq (c : Cartridge) (p : Ppu) :
    ∃ v b, backgroundEvent c p = { p with v := v, bg := b } := by
  unfold backgroundEvent
  split
  · unfold backgroundDot
    obtain ⟨v1, b1, h1⟩ := shiftAndFetch_eq c p
    rw [h1]
    obtain ⟨v2, h2⟩ := verticalStep_eq { p with v := v1, bg := b1 }
    rw [h2]
    obtain ⟨v3, b3, h3⟩ := horizontalReload_eq { p with v := v2, bg := b1 }
    dsimp only at h3 ⊢
    rw [h3]
    obtain ⟨b4, h4⟩ := extraNametableFetch_eq c { p with v := v3, bg := b3 }
    dsimp only at h4 ⊢
    rw [h4]
    obtain ⟨v5, h5⟩ := verticalReload_eq { p with v := v3, bg := b4 }
    dsimp only at h5 ⊢
    exact ⟨v5, b4, h5⟩
  · exact ⟨p.v, p.bg, rfl⟩

/-- Loading a tile leaves the high bytes of the four registers. -/
theorem loadShifters_high (b : Background) (k : Nat) (hk : 8 ≤ k) (hk' : k < 16) :
    (loadShifters b).patHi.getLsbD k = b.patHi.getLsbD k ∧ (loadShifters b).patLo.getLsbD k = b.patLo.getLsbD k ∧
    (loadShifters b).attHi.getLsbD k = b.attHi.getLsbD k ∧ (loadShifters b).attLo.getLsbD k = b.attLo.getLsbD k := by
  have h : ∀ (v : Word) (x : Byte), (putField v 0 x).getLsbD k = v.getLsbD k := by
    intro v x
    have hx : x.getLsbD k = false := BitVec.getLsbD_of_ge x k (by omega)
    interval_cases k <;> simp [putField]
  exact ⟨h _ _, h _ _, h _ _, h _ _⟩

theorem shiftBackground_bit (b : Background) (k : Nat) (hk : 8 ≤ k) (hk' : k < 16) :
    (shiftBackground b).patHi.getLsbD k = b.patHi.getLsbD (k - 1) ∧
    (shiftBackground b).patLo.getLsbD k = b.patLo.getLsbD (k - 1) ∧
    (shiftBackground b).attHi.getLsbD k = b.attHi.getLsbD (k - 1) ∧
    (shiftBackground b).attLo.getLsbD k = b.attLo.getLsbD (k - 1) := by
  have h : ∀ v : Word, (v <<< 1).getLsbD k = v.getLsbD (k - 1) := by
    intro v
    rw [BitVec.getLsbD_shiftLeft]
    simp [hk', show ¬k < 1 by omega]
  exact ⟨h _, h _, h _, h _⟩

/-- What a fetch dot does to the high bytes. -/
theorem tileFetch_high (c : Cartridge) (n : Nat) (p : Ppu) (k : Nat) (hk : 8 ≤ k) (hk' : k < 16) :
    (tileFetch c n p).bg.patHi.getLsbD k = p.bg.patHi.getLsbD k ∧
    (tileFetch c n p).bg.patLo.getLsbD k = p.bg.patLo.getLsbD k ∧
    (tileFetch c n p).bg.attHi.getLsbD k = p.bg.attHi.getLsbD k ∧
    (tileFetch c n p).bg.attLo.getLsbD k = p.bg.attLo.getLsbD k := by
  unfold tileFetch
  repeat' split
  · exact loadShifters_high p.bg k hk hk'
  all_goals exact ⟨rfl, rfl, rfl, rfl⟩

/-- On a visible dot of a rendered line the high bytes shift once, at dot 1 not at all (rules R355, R356). -/
theorem backgroundEvent_high (c : Cartridge) (p : Ppu) (hr : renderingEnabled p = true) (hs : p.scanline ≤ 239)
    (hc : 1 ≤ p.cycle) (hc' : p.cycle ≤ 256) (k : Nat) (hk : 8 ≤ k) (hk' : k < 16) :
    let j := if p.cycle = 1 then k else k - 1
    (backgroundEvent c p).bg.patHi.getLsbD k = p.bg.patHi.getLsbD j ∧
    (backgroundEvent c p).bg.patLo.getLsbD k = p.bg.patLo.getLsbD j ∧
    (backgroundEvent c p).bg.attHi.getLsbD k = p.bg.attHi.getLsbD j ∧
    (backgroundEvent c p).bg.attLo.getLsbD k = p.bg.attLo.getLsbD j := by
  have e : (backgroundEvent c p).bg = (shiftAndFetch c p).bg := by
    unfold backgroundEvent
    rw [if_pos ⟨hr, .inl hs⟩]
    unfold backgroundDot
    obtain ⟨v1, b1, h1⟩ := shiftAndFetch_eq c p
    rw [h1]
    obtain ⟨v2, h2⟩ := verticalStep_eq { p with v := v1, bg := b1 }
    rw [h2]
    have h3 : horizontalReload { p with v := v2, bg := b1 } = { p with v := v2, bg := b1 } := by
      unfold horizontalReload
      rw [if_neg]
      dsimp only
      omega
    dsimp only at h3 ⊢
    rw [h3]
    have h4 : extraNametableFetch c { p with v := v2, bg := b1 } = { p with v := v2, bg := b1 } := by
      unfold extraNametableFetch
      rw [if_neg]
      dsimp only
      omega
    rw [h4]
    obtain ⟨v5, h5⟩ := verticalReload_eq { p with v := v2, bg := b1 }
    rw [h5]
  rw [e]
  unfold shiftAndFetch fetchDot
  by_cases h1 : p.cycle = 1
  · simp [h1]
  · have : (decide (2 ≤ p.cycle) && decide (p.cycle ≤ 257) || decide (321 ≤ p.cycle) && decide (p.cycle ≤ 337)) = true := by
      simp; omega
    rw [if_pos this]
    simp only [h1, if_false]
    have a := tileFetch_high c ((p.cycle - 1) % 8) { p with bg := shiftBackground p.bg } k hk hk'
    have b := shiftBackground_bit p.bg k hk hk'
    exact ⟨a.1.trans b.1, a.2.1.trans b.2.1, a.2.2.1.trans b.2.2.1, a.2.2.2.trans b.2.2.2⟩

/-- Sprite evaluation changes the overflow flag and the next line's list, of at most eight records. -/
theorem evaluationEvent_eq (p : Ppu) : ∃ o l, evaluationEvent p = { p with spriteOverflow := o, nextSprites := l } ∧
    (p.nextSprites.length ≤ 8 → l.length ≤ 8) := by
  unfold evaluationEvent
  split
  · refine ⟨_, _, rfl, fun _ => ?_⟩
    simp only [List.length_map, List.length_take]
    omega
  · exact ⟨p.spriteOverflow, p.nextSprites, rfl, id⟩

/-- Sprite fetch and the pre-render clearing change this line's list only. -/
theorem spriteLineEvents_eq (c : Cartridge) (p : Ppu) :
    ∃ l, clearSpritesEvent (spriteFetchEvent c p) = { p with lineSprites := l } ∧
      (p.lineSprites.length ≤ 8 → p.nextSprites.length ≤ 8 → l.length ≤ 8) := by
  unfold clearSpritesEvent spriteFetchEvent fetchSprites
  split
  · dsimp only
    split
    · exact ⟨[], rfl, fun _ _ => by simp⟩
    · exact ⟨_, rfl, fun _ h => by simpa using h⟩
  · split
    · exact ⟨[], rfl, fun _ _ => by simp⟩
    · exact ⟨p.lineSprites, rfl, fun h _ => h⟩

/-- Pixel output changes the hit flag and one entry of the frame buffer, the one of this dot. -/
theorem pixelEvent_eq (p : Ppu) : ∃ h f, pixelEvent p = { p with sprite0Hit := h, frame := f } ∧
    (f = p.frame ∨
      p.scanline ≤ 239 ∧ p.cycle ≤ 256 ∧ ∃ v, f = writeCell p.frame (frameIndex p.scanline (p.cycle - 1)) v) := by
  unfold pixelEvent
  split
  · rename_i h
    exact ⟨_, _, rfl, .inr ⟨h.1, h.2.2, _, rfl⟩⟩
  · exact ⟨p.sprite0Hit, p.frame, rfl, .inl rfl⟩

/-- All the events of a dot can change, with what they keep. -/
theorem dotEvents_eq (c : Cartridge) (p : Ppu) :
    ∃ vb n h o v b l l' f, dotEvents c p =
      { p with
        vblank := vb, nmiRequest := n, sprite0Hit := h, spriteOverflow := o, v := v, bg := b, lineSprites := l
        nextSprites := l', frame := f } ∧
      (p.nextSprites.length ≤ 8 → l'.length ≤ 8) ∧
      (p.lineSprites.length ≤ 8 → p.nextSprites.length ≤ 8 → l.length ≤ 8) ∧
      (Store.within 61440 p.frame → Store.within 61440 f) := by
  unfold dotEvents
  obtain ⟨vb, n, h1, o1, e1⟩ := flagEvents_eq p
  rw [e1]
  obtain ⟨v, b, e2⟩ := backgroundEvent_eq c
    { p with vblank := vb, nmiRequest := n, sprite0Hit := h1, spriteOverflow := o1 }
  rw [e2]
  obtain ⟨o, l', e3, hl'⟩ := evaluationEvent_eq
    { p with vblank := vb, nmiRequest := n, sprite0Hit := h1, spriteOverflow := o1, v := v, bg := b }
  dsimp only at e3 ⊢
  rw [e3]
  obtain ⟨l, e4, hl⟩ := spriteLineEvents_eq c
    { p with
      vblank := vb, nmiRequest := n, sprite0Hit := h1, spriteOverflow := o, v := v, bg := b, nextSprites := l' }
  dsimp only at e4 ⊢
  rw [e4]
  obtain ⟨h, f, e5, hf⟩ := pixelEvent_eq
    { p with
      vblank := vb, nmiRequest := n, sprite0Hit := h1, spriteOverflow := o, v := v, bg := b, nextSprites := l'
      lineSprites := l }
  dsimp only at e5 hf ⊢
  rw [e5]
  refine ⟨vb, n, h, o, v, b, l, l', f, rfl, hl', fun a b => hl a (hl' b), fun hw => ?_⟩
  rcases hf with rfl | ⟨hs, hc, u, rfl⟩
  · exact hw
  · refine within_writeCell ?_ hw
    simp only [frameIndex]
    omega

/-- The events of a dot leave the CPU's registers, the counters and the PPU's memories. -/
theorem dotEvents_same (c : Cartridge) (p : Ppu) : SameRegisters p (dotEvents c p) := by
  obtain ⟨_, _, _, _, _, _, _, _, _, h, -⟩ := dotEvents_eq c p
  rw [h]
  constructor <;> rfl

/-! ## The pixel of a dot -/

theorem twoBits_toNat (h l : Bool) : (twoBits h l).toNat = 2 * h.toNat + l.toNat := by
  cases h <;> cases l <;> rfl

theorem spriteValue_toNat (r : LineSprite) (px : Nat) : (spriteValue r px).toNat = coverage r px := by
  unfold spriteValue coverage
  by_cases h : r.x.toNat ≤ px ∧ px - r.x.toNat ≤ 7
  · rw [if_pos h, if_pos (by omega)]
    rw [twoBits_toNat, show 7 - (px - r.x.toNat) = r.x.toNat + 7 - px by omega]
    rfl
  · rw [if_neg h, if_neg (by omega)]
    rfl

/-- The sprite scan of rule R366 as a search. -/
theorem firstSprite_eq (px : Nat) (l : List LineSprite) :
    firstSprite px l = (l.find? (fun r => decide (coverage r px ≠ 0))).map (fun r =>
      { pixel := { value := spriteValue r px, pal := 4 + (r.attr.extractLsb' 0 2).setWidth 3 }
        front := !r.attr.getLsbD 5, isZero := r.isZero }) := by
  induction l with
  | nil => rfl
  | cons r rest ih =>
    simp only [firstSprite]
    by_cases h : spriteValue r px = 0
    · have : coverage r px = 0 := by rw [← spriteValue_toNat, h]; rfl
      rw [if_pos h, ih, List.find?_cons_of_neg (by simp [this])]
    · have : coverage r px ≠ 0 := by
        rw [← spriteValue_toNat]
        intro h'
        exact h (BitVec.eq_of_toNat_eq h')
      rw [if_neg h, List.find?_cons_of_pos (by simp [this])]
      rfl

/-- The palette index of an output pixel: its palette times four and its value, or 0 (rules R335, R368). -/
theorem paletteIndex_pixelAddress (value : BitVec 2) (pal : BitVec 3) :
    paletteIndex (pixelAddress { value := value, pal := pal }) =
      if value.toNat = 0 then 0 else 4 * pal.toNat + value.toNat := by
  revert value pal; decide

/-! ## The counters -/

theorem advanceDot_number {p : Ppu} (hs : p.scanline < linesPerFrame) (hc : p.cycle < dotsPerLine) :
    dotNumber (advanceDot p) = (dotNumber p + 1) % (linesPerFrame * dotsPerLine) ∧
      (advanceDot p).scanline < linesPerFrame ∧ (advanceDot p).cycle < dotsPerLine := by
  simp only [linesPerFrame, dotsPerLine] at hs hc
  unfold advanceDot
  split
  · split
    · simp_all [dotNumber, linesPerFrame, dotsPerLine]
    · simp_all [dotNumber, linesPerFrame, dotsPerLine]
      omega
  · simp_all [dotNumber, linesPerFrame, dotsPerLine]
    omega

/-- One dot moves the dot number up by one, modulo a frame. -/
theorem ppuDot_number (c : Cartridge) {p : Ppu} (hs : p.scanline < linesPerFrame) (hc : p.cycle < dotsPerLine) :
    dotNumber (ppuDot c p) = (dotNumber p + 1) % (linesPerFrame * dotsPerLine) ∧
      (ppuDot c p).scanline < linesPerFrame ∧ (ppuDot c p).cycle < dotsPerLine := by
  have h := dotEvents_same c p
  have := advanceDot_number (p := dotEvents c p) (by rw [h.scanline]; exact hs) (by rw [h.cycle]; exact hc)
  simpa [ppuDot, dotNumber, h.scanline, h.cycle] using this

/-- `n` dots in two parts. -/
theorem ppuDots_add (c : Cartridge) (m : Nat) : ∀ (n : Nat) (p : Ppu),
    ppuDots c (n + m) p = ppuDots c m (ppuDots c n p)
  | 0, p => by simp [ppuDots]
  | n + 1, p => by
    rw [Nat.add_right_comm]
    simp only [ppuDots]
    exact ppuDots_add c m n _

/-- A property that each dot keeps is kept by any number of dots. -/
theorem ppuDots_keeps (c : Cartridge) {P : Ppu → Prop} (h : ∀ p, P p → P (ppuDot c p)) : ∀ (n : Nat) (p : Ppu),
    P p → P (ppuDots c n p)
  | 0, _, hp => hp
  | n + 1, p, hp => ppuDots_keeps c h n (ppuDot c p) (h p hp)

end Sys2Proof.Machine
end

