-- ==== Sys2Proof/Laws/Operands.lean ====
section
/-! SUPPORT. What an addressing mode and an access class give, in the terms of Machine/View.lean: an addressing mode
has no side effect, and an instruction of each class leaves what `reads`, `writes`, `modifies` say. -/

namespace Sys2Proof.Machine

/-! ## Addresses -/

theorem mkWord_zero (b : Byte) : mkWord 0x00 b = zeroPage b := by
  revert b
  decide +kernel

theorem zeroPage_lt (z : Byte) : zeroPage z < 0x2000 := by
  have := z.isLt
  rw [BitVec.lt_def, zeroPage, BitVec.toNat_setWidth]
  show z.toNat % 65536 < 8192
  omega

theorem stackAddress_toNat (p : Byte) : (stackAddress p).toNat = 0x100 + p.toNat := by
  revert p
  decide +kernel

theorem stackAddress_lt (p : Byte) : stackAddress p < 0x2000 := by
  have := p.isLt
  rw [BitVec.lt_def, stackAddress_toNat]
  show 256 + p.toNat < 8192
  omega

theorem stackAddress_eq (p : Byte) : stackAddress p = mkWord 0x01 p := by
  revert p
  decide +kernel

theorem ramIndex_stackAddress (p : Byte) : ramIndex (stackAddress p) = 0x100 + p.toNat := by
  have := p.isLt
  rw [ramIndex_eq_mod, stackAddress_toNat]
  omega

theorem hiByte_toNat (w : Word) : (hiByte w).toNat = w.toNat / 256 := by
  have := w.isLt
  simp only [hiByte, BitVec.extractLsb'_toNat, Nat.shiftRight_eq_div_pow]
  omega

theorem loByte_toNat (w : Word) : (loByte w).toNat = w.toNat % 256 := by
  simp [loByte, BitVec.extractLsb'_toNat]

theorem mkWord_toNat (hi lo : Byte) : (mkWord hi lo).toNat = hi.toNat * 256 + lo.toNat := by
  have := lo.isLt
  rw [mkWord, BitVec.toNat_append, Nat.shiftLeft_eq, Nat.mul_comm, ← Nat.two_pow_add_eq_or_of_lt this]

@[simp] theorem mkWord_bytes (w : Word) : mkWord (hiByte w) (loByte w) = w := by
  have := w.isLt
  apply BitVec.eq_of_toNat_eq
  rw [mkWord_toNat, hiByte_toNat, loByte_toNat]
  omega

@[simp] theorem hiByte_mkWord (hi lo : Byte) : hiByte (mkWord hi lo) = hi := by
  have := lo.isLt
  have := hi.isLt
  apply BitVec.eq_of_toNat_eq
  rw [hiByte_toNat, mkWord_toNat]
  omega

@[simp] theorem loByte_mkWord (hi lo : Byte) : loByte (mkWord hi lo) = lo := by
  have := lo.isLt
  apply BitVec.eq_of_toNat_eq
  rw [loByte_toNat, mkWord_toNat]
  omega

theorem pageCrossed_eq (base ea : Word) : pageCrossed base ea = decide (ea.toNat / 256 ≠ base.toNat / 256) := by
  rw [pageCrossed, ← hiByte_toNat, ← hiByte_toNat]
  by_cases h : hiByte ea = hiByte base
  · simp [h]
  · simp [h, BitVec.toNat_inj]

@[simp] theorem pageCrossed_self (a : Word) : pageCrossed a a = false := by simp [pageCrossed]

/-! ## Addressing modes -/

/-- A pointer read in page 0 reads RAM and has no side effect. -/
theorem zeroPagePointer_eq (z : Byte) (s : State) :
    zeroPagePointer z s = { val := zeroPageWord z s, st := s } := by
  simp only [zeroPagePointer, readPair, busRead_ram (zeroPage_lt _), ramIndex_zeroPage, zeroPageWord, zeroPageByte]

theorem crossesPage_eq (m : MemMode) (s : State) :
    crossesPage m s = pageCrossed (baseAddress m s) (effectiveAddress m s) :=
  (pageCrossed_eq _ _).symm

/-- An addressing mode gives `effectiveAddress` and `crossesPage`, and changes nothing. -/
theorem resolve_eq (m : MemMode) (s : State) :
    resolve m s = { ea := effectiveAddress m s, crossed := crossesPage m s, st := s } := by
  cases m <;>
    simp only [resolve, indexed, zeroPagePointer_eq, effectiveAddress, crossesPage_eq, baseAddress, mkWord_zero,
      zeroPage, pageCrossed_self]

/-! ## Access classes -/

theorem costOf_eq (base : Nat) (penalty crossed : Bool) :
    costOf base penalty crossed = if penalty && crossed then base + 1 else base := by
  cases penalty <;> cases crossed <;> rfl

theorem readInstr_eq (base : Nat) (penalty : Bool) (src : Source) (f : Byte → Cpu → Cpu) (s : State) :
    readInstr base penalty src f s = reads base penalty src f s := by
  cases src with
  | imm b => simp [readInstr, reads, readOperand, operandRead, sourceCrosses, charge, mapCpu, spent, costOf_eq]
  | mem m =>
    simp only [readInstr, reads, readOperand, operandRead, sourceCrosses, resolve_eq, charge, mapCpu, spent, costOf_eq,
      busRead_cpu]
    rfl

theorem writeInstr_eq (base : Nat) (m : MemMode) (v : Byte) (s : State) :
    writeInstr base m v s = writes base m v s := by
  simp only [writeInstr, writes, resolve_eq, charge, spent, busWrite_cpu]

theorem modifyInstr_eq (base : Nat) (m : MemMode) (f : Byte → Cpu → Byte) (g : Byte → Byte → Cpu → Cpu)
    (s : State) : modifyInstr base m f g s = modifies base m (fun x => f x s.cpu) g s := by
  simp only [modifyInstr, modifies, resolve_eq, charge, mapCpu, spent, busWrite_cpu, busRead_cpu]

theorem cpuInstr_eq (base : Nat) (f : Cpu → Cpu) (s : State) : cpuInstr base f s = touchesCpu base f s := rfl

/-- A branch: `PC` and the cost (45_control rule R193). -/
theorem branch_eq (cond : Bool) (d : Byte) (s : State) :
    branch cond d s =
      touchesCpu (if cond then (if pageCrossed s.cpu.pc (s.cpu.pc + d.signExtend 16) then 4 else 3) else 2)
        (fun c => if cond then { c with pc := c.pc + d.signExtend 16 } else c) s := by
  unfold branch touchesCpu
  cases cond
  · rfl
  · cases h : pageCrossed s.cpu.pc (s.cpu.pc + d.signExtend 16) <;> simp [h, b2n, charge, mapCpu, setPc, spent]

/-! ## The stack -/

/-- A push stores in page 1 of RAM and decrements `S`; nothing else changes. -/
theorem push_eq (v : Byte) (s : State) :
    push v s = { s with
      cpu := { s.cpu with s := s.cpu.s - 1 }
      bus := { s.bus with ram := stackStore s.cpu.s v s.bus.ram } } := by
  simp only [push, busWrite_ram (stackAddress_lt _), ramIndex_stackAddress, stackStore, mapCpu, setS]

/-- A pull increments `S` and reads page 1 of RAM; nothing else changes. -/
theorem pull_eq (s : State) :
    pull s = { val := stackByte (s.cpu.s + 1) s, st := { s with cpu := { s.cpu with s := s.cpu.s + 1 } } } := by
  simp only [pull, busRead_ram (stackAddress_lt _), ramIndex_stackAddress, stackByte, mapCpu, setS]

/-- Pushing a word: the high byte, then the low byte below it. -/
theorem pushWord_eq (w : Word) (s : State) :
    pushWord w s = { s with
      cpu := { s.cpu with s := s.cpu.s - 1 - 1 }
      bus := { s.bus with
        ram := stackStore (s.cpu.s - 1) (loByte w) (stackStore s.cpu.s (hiByte w) s.bus.ram) } } := by
  simp only [pushWord, push_eq]

/-- Pulling a word: the low byte, then the high byte above it. -/
theorem pullWord_eq (s : State) :
    pullWord s =
      { val := mkWord (stackByte (s.cpu.s + 1 + 1) s) (stackByte (s.cpu.s + 1) s)
        st := { s with cpu := { s.cpu with s := s.cpu.s + 1 + 1 } } } := by
  simp only [pullWord, pull_eq, stackByte]

/-- The state in which an interrupt entry reads its vector: three bytes pushed and `I` set. -/
def entered (b : Bool) (s : State) : State :=
  { s with
    cpu := { s.cpu with s := s.cpu.s - 1 - 1 - 1, p := { s.cpu.p with i := true } }
    bus := { s.bus with
      ram := stackStore (s.cpu.s - 1 - 1) (pack s.cpu.p b)
        (stackStore (s.cpu.s - 1) (loByte s.cpu.pc) (stackStore s.cpu.s (hiByte s.cpu.pc) s.bus.ram)) } }

/-- `InterruptEntry(vec, b)` in one piece (60_exceptions rule R449). -/
theorem interruptEntry_eq (vec : Word) (b : Bool) (s : State) :
    interruptEntry vec b s =
      { (memRead16 vec (entered b s)).st with
        cpu := { (entered b s).cpu with pc := (memRead16 vec (entered b s)).val } } := by
  simp only [interruptEntry, pushWord_eq, push_eq, mapCpu, setI, entered, setPc]
  simp [memRead16, readPair]

/-- RTI in one piece (46_system_flags rule R220). -/
theorem returnFromInterrupt_eq (s : State) :
    returnFromInterrupt s =
      { s with
        cpu := { s.cpu with
          s := s.cpu.s + 1 + 1 + 1
          p := unpack (stackByte (s.cpu.s + 1) s) s.cpu.p
          pc := mkWord (stackByte (s.cpu.s + 1 + 1 + 1) s) (stackByte (s.cpu.s + 1 + 1) s) } } := by
  simp only [returnFromInterrupt, pull_eq, pullWord_eq, mapCpu, setPc, stackByte]

/-- A vector in program data, read without side effect. -/
theorem memRead16_peek {a : Word} {lo hi : Byte} {s : State} (h0 : peek a s = some lo)
    (h1 : peek (a + 1) s = some hi) : memRead16 a s = { val := mkWord hi lo, st := s } := by
  simp only [memRead16, readPair, busRead_peek h0, busRead_peek h1]

end Sys2Proof.Machine
end

