-- ==== Sys2Proof/Laws/Effects.lean ====
section
/-! SUPPORT. The machine's flag computations and arithmetic (Machine/Flags.lean) are the formulas over numbers of
Machine/Effects.lean: one equation per operation, so that a proof rewrites with it and unfolds neither side. Then the
stack page read after a push, and the step of a running machine. -/

namespace Sys2Proof.Machine

theorem flagsNZ_of_bits (v : Byte) (p : Flags) : ({p with z := v == 0, n := bit7 v} : Flags) = flagsNZ v p := by
  have : ∀ v : Byte, (v == 0) = decide (v.toNat = 0) ∧ bit7 v = decide (128 ≤ v.toNat) := by decide +kernel
  simp only [flagsNZ, (this v).1, (this v).2]

theorem setNZ_eq_flagsNZ : setNZ = fun v c => { c with p := flagsNZ v c.p } := by
  funext v c
  simp only [setNZ, flagsNZ_of_bits]

theorem loadA_eq_gotA : loadA = gotA := by funext v c; simp only [loadA, setA, gotA, setNZ_eq_flagsNZ]

theorem loadX_eq_gotX : loadX = gotX := by funext v c; simp only [loadX, setX, gotX, setNZ_eq_flagsNZ]

theorem loadY_eq_gotY : loadY = gotY := by funext v c; simp only [loadY, setY, gotY, setNZ_eq_flagsNZ]

theorem setC_eq_carry : setC = carry := rfl

theorem ofInt_sub_eq_sub (r m : Byte) : BitVec.ofInt 8 (r.toNat - m.toNat : Int) = r - m := by
  apply BitVec.eq_of_toInt_eq
  simp [BitVec.toInt_ofInt, BitVec.toInt_sub]
  simp [BitVec.toInt_eq_toNat_bmod]

theorem compareCore_eq_compared : compareCore = compared := by
  funext r m c; simp only [compareCore, compared, setC, setNZ_eq_flagsNZ, ofInt_sub_eq_sub]; rfl

theorem bitTest_eq_bitTested : bitTest = bitTested := by
  funext m c
  have h : ∀ v : Byte, (v == 0) = decide (v.toNat = 0) := by decide +kernel
  have h1 : ∀ v : Byte, bit7 v = decide (128 ≤ v.toNat) ∧ v.getLsbD 6 = decide (64 ≤ v.toNat % 128) := by
    decide +kernel
  simp only [bitTest, bitTested, h, (h1 m).1, (h1 m).2]

theorem shiftLeft_eq_leftWith : shiftLeft = leftWith false := by
  have : ∀ v : Byte, shiftLeft v = leftWith false v := by decide +kernel
  funext v; exact this v

theorem shiftRight_eq_rightWith : shiftRight = rightWith false := by
  have : ∀ v : Byte, shiftRight v = rightWith false v := by decide +kernel
  funext v; exact this v

theorem rotateLeft_eq_leftWith (m : Byte) (c : Bool) : rotateLeft m c = leftWith c m := by
  revert m c
  decide +kernel

theorem rotateRight_eq_rightWith (m : Byte) (c : Bool) : rotateRight m c = rightWith c m := by
  revert m c
  decide +kernel

theorem bit7_eq_topBit : bit7 = topBit := by
  have : ∀ v : Byte, bit7 v = topBit v := by decide +kernel
  funext v; exact this v

theorem bit0_eq_lowBit (m : Byte) : m.getLsbD 0 = lowBit m := by revert m; decide +kernel

theorem bit6_eq_bitSix (m : Byte) : m.getLsbD 6 = bitSix m := by revert m; decide +kernel

theorem bit5_eq_bitFive (m : Byte) : m.getLsbD 5 = bitFive m := by revert m; decide +kernel

theorem add_one_eq_ofNat (m : Byte) : m + 1 = BitVec.ofNat 8 (m.toNat + 1) := by revert m; decide +kernel

theorem sub_one_eq_ofInt (m : Byte) : m - 1 = BitVec.ofInt 8 ((m.toNat : Int) - 1) := by revert m; decide +kernel

set_option maxRecDepth 4000 in
theorem addOverflow_eq_signFlips (a m r : Byte) : addOverflow a m r = signFlips a.toNat m.toNat r.toNat := by
  have h : ∀ v : Byte, bit7 v = decide (v.toNat / 128 % 2 = 1) := by decide +kernel
  have hx : ∀ v : Byte, v.toNat / 128 % 2 = (bit7 v).toNat := by decide +kernel
  simp only [signFlips, hx, addOverflow, bit7]
  simp only [BitVec.getLsbD_and, BitVec.getLsbD_not, BitVec.getLsbD_xor]
  cases a.getLsbD 7 <;> cases m.getLsbD 7 <;> cases r.getLsbD 7 <;> rfl

theorem b2n_eq_toNat : b2n = Bool.toNat := by funext b; cases b <;> rfl

theorem addBinary_eq_addedBinary : addBinary = addedBinary := by
  funext m c
  have h : ∀ n : Nat, (decide (0xFF < n)) = decide (256 ≤ n) := by intro n; simp; omega
  simp only [addBinary, addedBinary, loadA_eq_gotA, gotA, setC, setV, b2n_eq_toNat, addOverflow_eq_signFlips, h,
    BitVec.toNat_ofNat]
  rfl

theorem decimalSum_eq_decimalPartial (a m : Byte) (k : Bool) :
    decimalSum a m k = decimalPartial a.toNat m.toNat k.toNat := by
  simp only [decimalSum, decimalLowSum, decimalPartial, b2n_eq_toNat]
  split <;> split <;> omega

theorem signFlips_mod (a m t : Nat) : signFlips a m (t % 256) = signFlips a m t := by
  have : t % 256 / 128 % 2 = t / 128 % 2 := by omega
  simp only [signFlips, this]

theorem addDecimal_eq_addedDecimal : addDecimal = addedDecimal := by
  funext m c
  have h7 : ∀ n : Nat, bit7 (BitVec.ofNat 8 n) = decide (n / 128 % 2 = 1) := by
    intro n
    have h : ∀ v : Byte, bit7 v = decide (v.toNat / 128 % 2 = 1) := by decide +kernel
    rw [h, BitVec.toNat_ofNat]
    have : n % 2^8 / 128 % 2 = n / 128 % 2 := by omega
    rw [this]
  have hz : ∀ n : Nat, (BitVec.ofNat 8 n == 0) = decide (n % 256 = 0) := by
    intro n
    have h : ∀ v : Byte, (v == 0) = decide (v.toNat = 0) := by decide +kernel
    rw [h, BitVec.toNat_ofNat]
  have ht : ∀ n : Nat, (if 0xA0 ≤ n then n + 0x60 else n) = (if n < 160 then n else n + 96) := by
    intro n
    split <;> split <;> omega
  simp only [addDecimal, addedDecimal, decimalSum_eq_decimalPartial, b2n_eq_toNat, h7, hz, addOverflow_eq_signFlips,
    BitVec.toNat_ofNat, ht]
  rw [show (2:Nat)^8 = 256 from rfl, signFlips_mod]

theorem addCore_eq_added (p : Params) : addCore p.decimalEnabled = added p := by
  funext m c
  simp only [addCore, added, addBinary_eq_addedBinary, addDecimal_eq_addedDecimal]
  cases c.p.d <;> cases p.decimalEnabled <;> rfl

theorem subCore_eq_subtracted (p : Params) : subCore p.decimalEnabled = subtracted p := by
  funext m c
  have hd : exactDifference c.a m c.p.c = difference c.a m c.p.c := by
    simp only [exactDifference, difference]; cases c.p.c <;> simp [b2n]
  have hdd : BitVec.ofInt 8 (decimalDifference c.a m c.p.c) = decimalSubtracted c.a m c.p.c := by
    simp only [decimalDifference, decimalSubtracted]
    cases c.p.c <;> simp [b2n] <;> (congr 1; split <;> split <;> omega)
  have hv : ∀ r : Byte, subOverflow c.a m r =
      (decide (c.a.toNat / 128 ≠ m.toNat / 128) && decide (r.toNat / 128 ≠ c.a.toNat / 128)) := by
    intro r
    have hx : ∀ v : Byte, v.toNat / 128 = (bit7 v).toNat := by decide +kernel
    simp only [hx, subOverflow, bit7, BitVec.getLsbD_and, BitVec.getLsbD_xor]
    cases c.a.getLsbD 7 <;> cases m.getLsbD 7 <;> cases r.getLsbD 7 <;> rfl
  have h : ∀ v : Byte, (v == 0) = decide (v.toNat = 0) ∧ bit7 v = decide (128 ≤ v.toNat) := by decide +kernel
  simp only [subCore, subtracted, hd, hdd, hv, flagsNZ, (h _).1, (h _).2]
  cases c.p.d <;> cases p.decimalEnabled <;> rfl

theorem arrCore_eq_arrLeaves (p : Params) : arrCore p.decimalEnabled = arrLeaves p := by
  funext m c
  have h : ∀ v : Byte, (v == 0) = decide (v.toNat = 0) := by decide +kernel
  have hb : ∀ a b : Bool, (a != b) = decide (a ≠ b) := by decide
  have hr : ∀ (r t : Byte), arrDecimalResult t r =
      BitVec.ofNat 8
        (if arrAdjusts (t.toNat / 16) then
          (if arrAdjusts (t.toNat % 16) then 16 * (r.toNat / 16) + (r.toNat + 6) % 16 else r.toNat) + 96
        else if arrAdjusts (t.toNat % 16) then 16 * (r.toNat / 16) + (r.toNat + 6) % 16 else r.toNat) := by
    intro r t
    have e1 : ∀ r : Byte, ((r &&& 0xF0) ||| ((r + 6) &&& 0x0F)) =
        BitVec.ofNat 8 (16 * (r.toNat / 16) + (r.toNat + 6) % 16) := by decide +kernel
    have e2 : (5 < t.toNat % 16 + t.toNat % 2) = (arrAdjusts (t.toNat % 16) = true) := by
      simp only [arrAdjusts, decide_eq_true_eq]; congr 2; omega
    have e3 : (5 < t.toNat / 16 + t.toNat / 16 % 2) = (arrAdjusts (t.toNat / 16) = true) := by
      simp only [arrAdjusts, decide_eq_true_eq]
    simp only [arrDecimalResult, e1, e2, e3]
    cases arrAdjusts (t.toNat / 16) <;> cases arrAdjusts (t.toNat % 16) <;> simp
    all_goals (apply BitVec.eq_of_toNat_eq; simp [BitVec.toNat_add])
  have e3 : ∀ n : Nat, decide (5 < n + n % 2) = arrAdjusts n := fun _ => rfl
  simp only [arrCore, arrLeaves, arrDecimal, rotateRight_eq_rightWith, bit6_eq_bitSix, bit5_eq_bitFive, h, hb, hr, e3,
    setV, setC, loadA_eq_gotA, gotA]
  cases c.p.d <;> cases p.decimalEnabled <;> rfl

theorem branch_eq_branches (t : Bool) (d : Byte) (s : State) : branch t d s = branches t d s := by
  have ht : s.cpu.pc + d.signExtend 16 = branchTarget s.cpu.pc d := by
    unfold branchTarget
    apply BitVec.eq_of_toInt_eq
    rw [BitVec.toInt_add, BitVec.toInt_ofInt, BitVec.toInt_signExtend_of_le (by decide),
      BitVec.toInt_eq_toNat_bmod s.cpu.pc]
    simp
  rw [branch_eq, ht]
  simp only [branches, pageCrossed_eq, decide_eq_true_eq]
  cases t
  · rfl
  · simp only [ite_not, if_true, touchesCpu, ht]

theorem pack_eq_packed (p : Flags) (b : Bool) : pack p b = BitVec.ofNat 8 (packed p b) := by
  obtain ⟨c,z,i,d,b',v,n⟩ := p
  cases b' <;> cases b <;> cases c <;> cases z <;> cases i <;> cases d <;> cases v <;> cases n <;> decide +kernel

theorem unpack_eq_unpacked (v : Byte) (p : Flags) : unpack v p = unpacked v p := by
  have : ∀ v : Byte, v.getLsbD 7 = decide (v.toNat / 128 % 2 = 1) ∧ v.getLsbD 6 = decide (v.toNat / 64 % 2 = 1) ∧
      v.getLsbD 3 = decide (v.toNat / 8 % 2 = 1) ∧ v.getLsbD 2 = decide (v.toNat / 4 % 2 = 1) ∧
      v.getLsbD 1 = decide (v.toNat / 2 % 2 = 1) ∧ v.getLsbD 0 = decide (v.toNat % 2 = 1) := by decide +kernel
  obtain ⟨h1,h2,h3,h4,h5,h6⟩ := this v
  simp only [unpack, unpacked, h1,h2,h3,h4,h5,h6]

/-! ## The stack page -/

theorem wf_stackStore {p v} {m : Memory} (h : Store.wf m = true) : Store.wf (stackStore p v m) = true := wf_writeCell h

theorem readCell_stackStore {p q v} {m : Memory} (h : Store.wf m = true) :
    readCell (stackStore p v m) (0x100 + q.toNat) = if q = p then v else readCell m (0x100 + q.toNat) := by
  unfold stackStore; rw [readCell_writeCell h]
  by_cases e : q = p
  · simp [e]
  · have : ¬ (q.toNat = p.toNat) := fun h => e (BitVec.eq_of_toNat_eq h)
    simp [e, this]

/-! ## The step -/

theorem clearNmiRequest_of_false {s : State} (h : s.ppu.nmiRequest = false) : clearNmiRequest s = s := by
  obtain ⟨params, cpu, bus, ppu, cart, irq, fo, fr, draws⟩ := s
  obtain ⟨⟩ := ppu
  simp only at h; subst h; rfl

/-- The step of a running machine runs an instruction, then the dots. -/
theorem step_of_running (s : State) (h : Running s) : step s = finish s (runInstruction s) := by
  obtain ⟨h1, h2, h3, h4⟩ := h
  have hs : cpuStep s.ppu.nmiRequest s.irqLine (clearNmiRequest s) = runInstruction s := by
    rw [clearNmiRequest_of_false h3, cpuStep, h1, h2, h3, h4]
    exact (if_neg Bool.false_ne_true).trans ((if_neg Bool.false_ne_true).trans (if_neg Bool.false_ne_true))
  have hh : ¬s.cpu.halted = true := by
    rw [h1]
    exact Bool.false_ne_true
  exact (if_neg hh).trans (congrArg (finish s) hs)

end Sys2Proof.Machine
end

