-- ==== Sys2Proof/Laws/Meanings.lean ====
section
/-! SUPPORT. What `exec` answers for each constructor, in the terms of Machine/View.lean: a proof about an instruction
cites its line and unfolds nothing. -/

namespace Sys2Proof.Machine

theorem exec_brkImp (s : State) :
    exec .brkImp s = brk s :=
  rfl

theorem exec_oraIzx (b : Byte) (s : State) :
    exec (.oraIzx b) s = reads 6 false (.mem (.izx b)) (fun m c => loadA (c.a ||| m) c) s :=
  readInstr_eq 6 false (.mem (.izx b)) (fun m c => loadA (c.a ||| m) c) s

theorem exec_jamImp02 (s : State) :
    exec .jamImp02 s = haltIllegal 0x02 s :=
  rfl

theorem exec_sloIzx (b : Byte) (s : State) :
    exec (.sloIzx b) s = modifies 8 (.izx b) (fun m => shiftLeft m) (fun m n c => loadA (c.a ||| n) (setC (bit7 m) c)) s :=
  modifyInstr_eq 8 (.izx b) (fun m _ => shiftLeft m) (fun m n c => loadA (c.a ||| n) (setC (bit7 m) c)) s

theorem exec_nopZp04 (b : Byte) (s : State) :
    exec (.nopZp04 b) s = reads 3 false (.mem (.zp b)) (fun _ c => c) s :=
  readInstr_eq 3 false (.mem (.zp b)) (fun _ c => c) s

theorem exec_oraZp (b : Byte) (s : State) :
    exec (.oraZp b) s = reads 3 false (.mem (.zp b)) (fun m c => loadA (c.a ||| m) c) s :=
  readInstr_eq 3 false (.mem (.zp b)) (fun m c => loadA (c.a ||| m) c) s

theorem exec_aslZp (b : Byte) (s : State) :
    exec (.aslZp b) s = modifies 5 (.zp b) (fun m => shiftLeft m) (fun m n c => setNZ n (setC (bit7 m) c)) s :=
  modifyInstr_eq 5 (.zp b) (fun m _ => shiftLeft m) (fun m n c => setNZ n (setC (bit7 m) c)) s

theorem exec_sloZp (b : Byte) (s : State) :
    exec (.sloZp b) s = modifies 5 (.zp b) (fun m => shiftLeft m) (fun m n c => loadA (c.a ||| n) (setC (bit7 m) c)) s :=
  modifyInstr_eq 5 (.zp b) (fun m _ => shiftLeft m) (fun m n c => loadA (c.a ||| n) (setC (bit7 m) c)) s

theorem exec_oraImm (b : Byte) (s : State) :
    exec (.oraImm b) s = reads 2 false (.imm b) (fun m c => loadA (c.a ||| m) c) s :=
  readInstr_eq 2 false (.imm b) (fun m c => loadA (c.a ||| m) c) s

theorem exec_aslAcc (s : State) :
    exec .aslAcc s = touchesCpu 2 (fun c => loadA (shiftLeft c.a) (setC (bit7 c.a) c)) s :=
  rfl

theorem exec_ancImm0B (b : Byte) (s : State) :
    exec (.ancImm0B b) s = reads 2 false (.imm b) (fun m c => ancCore m c) s :=
  readInstr_eq 2 false (.imm b) (fun m c => ancCore m c) s

theorem exec_nopAbs (n : Word) (s : State) :
    exec (.nopAbs n) s = reads 4 false (.mem (.abs n)) (fun _ c => c) s :=
  readInstr_eq 4 false (.mem (.abs n)) (fun _ c => c) s

theorem exec_oraAbs (n : Word) (s : State) :
    exec (.oraAbs n) s = reads 4 false (.mem (.abs n)) (fun m c => loadA (c.a ||| m) c) s :=
  readInstr_eq 4 false (.mem (.abs n)) (fun m c => loadA (c.a ||| m) c) s

theorem exec_aslAbs (n : Word) (s : State) :
    exec (.aslAbs n) s = modifies 6 (.abs n) (fun m => shiftLeft m) (fun m n c => setNZ n (setC (bit7 m) c)) s :=
  modifyInstr_eq 6 (.abs n) (fun m _ => shiftLeft m) (fun m n c => setNZ n (setC (bit7 m) c)) s

theorem exec_sloAbs (n : Word) (s : State) :
    exec (.sloAbs n) s = modifies 6 (.abs n) (fun m => shiftLeft m) (fun m n c => loadA (c.a ||| n) (setC (bit7 m) c)) s :=
  modifyInstr_eq 6 (.abs n) (fun m _ => shiftLeft m) (fun m n c => loadA (c.a ||| n) (setC (bit7 m) c)) s

theorem exec_bplRel (d : Byte) (s : State) :
    exec (.bplRel d) s = branch (!s.cpu.p.n) d s :=
  rfl

theorem exec_oraIzy (b : Byte) (s : State) :
    exec (.oraIzy b) s = reads 5 true (.mem (.izy b)) (fun m c => loadA (c.a ||| m) c) s :=
  readInstr_eq 5 true (.mem (.izy b)) (fun m c => loadA (c.a ||| m) c) s

theorem exec_jamImp12 (s : State) :
    exec .jamImp12 s = haltIllegal 0x12 s :=
  rfl

theorem exec_sloIzy (b : Byte) (s : State) :
    exec (.sloIzy b) s = modifies 8 (.izy b) (fun m => shiftLeft m) (fun m n c => loadA (c.a ||| n) (setC (bit7 m) c)) s :=
  modifyInstr_eq 8 (.izy b) (fun m _ => shiftLeft m) (fun m n c => loadA (c.a ||| n) (setC (bit7 m) c)) s

theorem exec_nopZpx14 (b : Byte) (s : State) :
    exec (.nopZpx14 b) s = reads 4 false (.mem (.zpx b)) (fun _ c => c) s :=
  readInstr_eq 4 false (.mem (.zpx b)) (fun _ c => c) s

theorem exec_oraZpx (b : Byte) (s : State) :
    exec (.oraZpx b) s = reads 4 false (.mem (.zpx b)) (fun m c => loadA (c.a ||| m) c) s :=
  readInstr_eq 4 false (.mem (.zpx b)) (fun m c => loadA (c.a ||| m) c) s

theorem exec_aslZpx (b : Byte) (s : State) :
    exec (.aslZpx b) s = modifies 6 (.zpx b) (fun m => shiftLeft m) (fun m n c => setNZ n (setC (bit7 m) c)) s :=
  modifyInstr_eq 6 (.zpx b) (fun m _ => shiftLeft m) (fun m n c => setNZ n (setC (bit7 m) c)) s

theorem exec_sloZpx (b : Byte) (s : State) :
    exec (.sloZpx b) s = modifies 6 (.zpx b) (fun m => shiftLeft m) (fun m n c => loadA (c.a ||| n) (setC (bit7 m) c)) s :=
  modifyInstr_eq 6 (.zpx b) (fun m _ => shiftLeft m) (fun m n c => loadA (c.a ||| n) (setC (bit7 m) c)) s

theorem exec_clcImp (s : State) :
    exec .clcImp s = touchesCpu 2 (fun c => setC false c) s :=
  rfl

theorem exec_oraAby (n : Word) (s : State) :
    exec (.oraAby n) s = reads 4 true (.mem (.aby n)) (fun m c => loadA (c.a ||| m) c) s :=
  readInstr_eq 4 true (.mem (.aby n)) (fun m c => loadA (c.a ||| m) c) s

theorem exec_nopImp1A (s : State) :
    exec .nopImp1A s = touchesCpu 2 (fun c => c) s :=
  rfl

theorem exec_sloAby (n : Word) (s : State) :
    exec (.sloAby n) s = modifies 7 (.aby n) (fun m => shiftLeft m) (fun m n c => loadA (c.a ||| n) (setC (bit7 m) c)) s :=
  modifyInstr_eq 7 (.aby n) (fun m _ => shiftLeft m) (fun m n c => loadA (c.a ||| n) (setC (bit7 m) c)) s

theorem exec_nopAbx1C (n : Word) (s : State) :
    exec (.nopAbx1C n) s = reads 4 true (.mem (.abx n)) (fun _ c => c) s :=
  readInstr_eq 4 true (.mem (.abx n)) (fun _ c => c) s

theorem exec_oraAbx (n : Word) (s : State) :
    exec (.oraAbx n) s = reads 4 true (.mem (.abx n)) (fun m c => loadA (c.a ||| m) c) s :=
  readInstr_eq 4 true (.mem (.abx n)) (fun m c => loadA (c.a ||| m) c) s

theorem exec_aslAbx (n : Word) (s : State) :
    exec (.aslAbx n) s = modifies 7 (.abx n) (fun m => shiftLeft m) (fun m n c => setNZ n (setC (bit7 m) c)) s :=
  modifyInstr_eq 7 (.abx n) (fun m _ => shiftLeft m) (fun m n c => setNZ n (setC (bit7 m) c)) s

theorem exec_sloAbx (n : Word) (s : State) :
    exec (.sloAbx n) s = modifies 7 (.abx n) (fun m => shiftLeft m) (fun m n c => loadA (c.a ||| n) (setC (bit7 m) c)) s :=
  modifyInstr_eq 7 (.abx n) (fun m _ => shiftLeft m) (fun m n c => loadA (c.a ||| n) (setC (bit7 m) c)) s

theorem exec_andIzx (b : Byte) (s : State) :
    exec (.andIzx b) s = reads 6 false (.mem (.izx b)) (fun m c => loadA (c.a &&& m) c) s :=
  readInstr_eq 6 false (.mem (.izx b)) (fun m c => loadA (c.a &&& m) c) s

theorem exec_jamImp22 (s : State) :
    exec .jamImp22 s = haltIllegal 0x22 s :=
  rfl

theorem exec_rlaIzx (b : Byte) (s : State) :
    exec (.rlaIzx b) s = modifies 8 (.izx b) (fun m => rotateLeft m s.cpu.p.c) (fun m n c => loadA (c.a &&& n) (setC (bit7 m) c)) s :=
  modifyInstr_eq 8 (.izx b) (fun m c => rotateLeft m c.p.c) (fun m n c => loadA (c.a &&& n) (setC (bit7 m) c)) s

theorem exec_bitZp (b : Byte) (s : State) :
    exec (.bitZp b) s = reads 3 false (.mem (.zp b)) (fun m c => bitTest m c) s :=
  readInstr_eq 3 false (.mem (.zp b)) (fun m c => bitTest m c) s

theorem exec_andZp (b : Byte) (s : State) :
    exec (.andZp b) s = reads 3 false (.mem (.zp b)) (fun m c => loadA (c.a &&& m) c) s :=
  readInstr_eq 3 false (.mem (.zp b)) (fun m c => loadA (c.a &&& m) c) s

theorem exec_rolZp (b : Byte) (s : State) :
    exec (.rolZp b) s = modifies 5 (.zp b) (fun m => rotateLeft m s.cpu.p.c) (fun m n c => setNZ n (setC (bit7 m) c)) s :=
  modifyInstr_eq 5 (.zp b) (fun m c => rotateLeft m c.p.c) (fun m n c => setNZ n (setC (bit7 m) c)) s

theorem exec_rlaZp (b : Byte) (s : State) :
    exec (.rlaZp b) s = modifies 5 (.zp b) (fun m => rotateLeft m s.cpu.p.c) (fun m n c => loadA (c.a &&& n) (setC (bit7 m) c)) s :=
  modifyInstr_eq 5 (.zp b) (fun m c => rotateLeft m c.p.c) (fun m n c => loadA (c.a &&& n) (setC (bit7 m) c)) s

theorem exec_andImm (b : Byte) (s : State) :
    exec (.andImm b) s = reads 2 false (.imm b) (fun m c => loadA (c.a &&& m) c) s :=
  readInstr_eq 2 false (.imm b) (fun m c => loadA (c.a &&& m) c) s

theorem exec_rolAcc (s : State) :
    exec .rolAcc s = touchesCpu 2 (fun c => loadA (rotateLeft c.a c.p.c) (setC (bit7 c.a) c)) s :=
  rfl

theorem exec_ancImm2B (b : Byte) (s : State) :
    exec (.ancImm2B b) s = reads 2 false (.imm b) (fun m c => ancCore m c) s :=
  readInstr_eq 2 false (.imm b) (fun m c => ancCore m c) s

theorem exec_bitAbs (n : Word) (s : State) :
    exec (.bitAbs n) s = reads 4 false (.mem (.abs n)) (fun m c => bitTest m c) s :=
  readInstr_eq 4 false (.mem (.abs n)) (fun m c => bitTest m c) s

theorem exec_andAbs (n : Word) (s : State) :
    exec (.andAbs n) s = reads 4 false (.mem (.abs n)) (fun m c => loadA (c.a &&& m) c) s :=
  readInstr_eq 4 false (.mem (.abs n)) (fun m c => loadA (c.a &&& m) c) s

theorem exec_rolAbs (n : Word) (s : State) :
    exec (.rolAbs n) s = modifies 6 (.abs n) (fun m => rotateLeft m s.cpu.p.c) (fun m n c => setNZ n (setC (bit7 m) c)) s :=
  modifyInstr_eq 6 (.abs n) (fun m c => rotateLeft m c.p.c) (fun m n c => setNZ n (setC (bit7 m) c)) s

theorem exec_rlaAbs (n : Word) (s : State) :
    exec (.rlaAbs n) s = modifies 6 (.abs n) (fun m => rotateLeft m s.cpu.p.c) (fun m n c => loadA (c.a &&& n) (setC (bit7 m) c)) s :=
  modifyInstr_eq 6 (.abs n) (fun m c => rotateLeft m c.p.c) (fun m n c => loadA (c.a &&& n) (setC (bit7 m) c)) s

theorem exec_bmiRel (d : Byte) (s : State) :
    exec (.bmiRel d) s = branch (s.cpu.p.n) d s :=
  rfl

theorem exec_andIzy (b : Byte) (s : State) :
    exec (.andIzy b) s = reads 5 true (.mem (.izy b)) (fun m c => loadA (c.a &&& m) c) s :=
  readInstr_eq 5 true (.mem (.izy b)) (fun m c => loadA (c.a &&& m) c) s

theorem exec_jamImp32 (s : State) :
    exec .jamImp32 s = haltIllegal 0x32 s :=
  rfl

theorem exec_rlaIzy (b : Byte) (s : State) :
    exec (.rlaIzy b) s = modifies 8 (.izy b) (fun m => rotateLeft m s.cpu.p.c) (fun m n c => loadA (c.a &&& n) (setC (bit7 m) c)) s :=
  modifyInstr_eq 8 (.izy b) (fun m c => rotateLeft m c.p.c) (fun m n c => loadA (c.a &&& n) (setC (bit7 m) c)) s

theorem exec_nopZpx34 (b : Byte) (s : State) :
    exec (.nopZpx34 b) s = reads 4 false (.mem (.zpx b)) (fun _ c => c) s :=
  readInstr_eq 4 false (.mem (.zpx b)) (fun _ c => c) s

theorem exec_andZpx (b : Byte) (s : State) :
    exec (.andZpx b) s = reads 4 false (.mem (.zpx b)) (fun m c => loadA (c.a &&& m) c) s :=
  readInstr_eq 4 false (.mem (.zpx b)) (fun m c => loadA (c.a &&& m) c) s

theorem exec_rolZpx (b : Byte) (s : State) :
    exec (.rolZpx b) s = modifies 6 (.zpx b) (fun m => rotateLeft m s.cpu.p.c) (fun m n c => setNZ n (setC (bit7 m) c)) s :=
  modifyInstr_eq 6 (.zpx b) (fun m c => rotateLeft m c.p.c) (fun m n c => setNZ n (setC (bit7 m) c)) s

theorem exec_rlaZpx (b : Byte) (s : State) :
    exec (.rlaZpx b) s = modifies 6 (.zpx b) (fun m => rotateLeft m s.cpu.p.c) (fun m n c => loadA (c.a &&& n) (setC (bit7 m) c)) s :=
  modifyInstr_eq 6 (.zpx b) (fun m c => rotateLeft m c.p.c) (fun m n c => loadA (c.a &&& n) (setC (bit7 m) c)) s

theorem exec_secImp (s : State) :
    exec .secImp s = touchesCpu 2 (fun c => setC true c) s :=
  rfl

theorem exec_andAby (n : Word) (s : State) :
    exec (.andAby n) s = reads 4 true (.mem (.aby n)) (fun m c => loadA (c.a &&& m) c) s :=
  readInstr_eq 4 true (.mem (.aby n)) (fun m c => loadA (c.a &&& m) c) s

theorem exec_nopImp3A (s : State) :
    exec .nopImp3A s = touchesCpu 2 (fun c => c) s :=
  rfl

theorem exec_rlaAby (n : Word) (s : State) :
    exec (.rlaAby n) s = modifies 7 (.aby n) (fun m => rotateLeft m s.cpu.p.c) (fun m n c => loadA (c.a &&& n) (setC (bit7 m) c)) s :=
  modifyInstr_eq 7 (.aby n) (fun m c => rotateLeft m c.p.c) (fun m n c => loadA (c.a &&& n) (setC (bit7 m) c)) s

theorem exec_nopAbx3C (n : Word) (s : State) :
    exec (.nopAbx3C n) s = reads 4 true (.mem (.abx n)) (fun _ c => c) s :=
  readInstr_eq 4 true (.mem (.abx n)) (fun _ c => c) s

theorem exec_andAbx (n : Word) (s : State) :
    exec (.andAbx n) s = reads 4 true (.mem (.abx n)) (fun m c => loadA (c.a &&& m) c) s :=
  readInstr_eq 4 true (.mem (.abx n)) (fun m c => loadA (c.a &&& m) c) s

theorem exec_rolAbx (n : Word) (s : State) :
    exec (.rolAbx n) s = modifies 7 (.abx n) (fun m => rotateLeft m s.cpu.p.c) (fun m n c => setNZ n (setC (bit7 m) c)) s :=
  modifyInstr_eq 7 (.abx n) (fun m c => rotateLeft m c.p.c) (fun m n c => setNZ n (setC (bit7 m) c)) s

theorem exec_rlaAbx (n : Word) (s : State) :
    exec (.rlaAbx n) s = modifies 7 (.abx n) (fun m => rotateLeft m s.cpu.p.c) (fun m n c => loadA (c.a &&& n) (setC (bit7 m) c)) s :=
  modifyInstr_eq 7 (.abx n) (fun m c => rotateLeft m c.p.c) (fun m n c => loadA (c.a &&& n) (setC (bit7 m) c)) s

theorem exec_eorIzx (b : Byte) (s : State) :
    exec (.eorIzx b) s = reads 6 false (.mem (.izx b)) (fun m c => loadA (c.a ^^^ m) c) s :=
  readInstr_eq 6 false (.mem (.izx b)) (fun m c => loadA (c.a ^^^ m) c) s

theorem exec_jamImp42 (s : State) :
    exec .jamImp42 s = haltIllegal 0x42 s :=
  rfl

theorem exec_sreIzx (b : Byte) (s : State) :
    exec (.sreIzx b) s = modifies 8 (.izx b) (fun m => shiftRight m) (fun m n c => loadA (c.a ^^^ n) (setC (m.getLsbD 0) c)) s :=
  modifyInstr_eq 8 (.izx b) (fun m _ => shiftRight m) (fun m n c => loadA (c.a ^^^ n) (setC (m.getLsbD 0) c)) s

theorem exec_nopZp44 (b : Byte) (s : State) :
    exec (.nopZp44 b) s = reads 3 false (.mem (.zp b)) (fun _ c => c) s :=
  readInstr_eq 3 false (.mem (.zp b)) (fun _ c => c) s

theorem exec_eorZp (b : Byte) (s : State) :
    exec (.eorZp b) s = reads 3 false (.mem (.zp b)) (fun m c => loadA (c.a ^^^ m) c) s :=
  readInstr_eq 3 false (.mem (.zp b)) (fun m c => loadA (c.a ^^^ m) c) s

theorem exec_lsrZp (b : Byte) (s : State) :
    exec (.lsrZp b) s = modifies 5 (.zp b) (fun m => shiftRight m) (fun m n c => setNZ n (setC (m.getLsbD 0) c)) s :=
  modifyInstr_eq 5 (.zp b) (fun m _ => shiftRight m) (fun m n c => setNZ n (setC (m.getLsbD 0) c)) s

theorem exec_sreZp (b : Byte) (s : State) :
    exec (.sreZp b) s = modifies 5 (.zp b) (fun m => shiftRight m) (fun m n c => loadA (c.a ^^^ n) (setC (m.getLsbD 0) c)) s :=
  modifyInstr_eq 5 (.zp b) (fun m _ => shiftRight m) (fun m n c => loadA (c.a ^^^ n) (setC (m.getLsbD 0) c)) s

theorem exec_eorImm (b : Byte) (s : State) :
    exec (.eorImm b) s = reads 2 false (.imm b) (fun m c => loadA (c.a ^^^ m) c) s :=
  readInstr_eq 2 false (.imm b) (fun m c => loadA (c.a ^^^ m) c) s

theorem exec_lsrAcc (s : State) :
    exec .lsrAcc s = touchesCpu 2 (fun c => loadA (shiftRight c.a) (setC (c.a.getLsbD 0) c)) s :=
  rfl

theorem exec_alrImm (b : Byte) (s : State) :
    exec (.alrImm b) s = reads 2 false (.imm b) (fun m c => alrCore m c) s :=
  readInstr_eq 2 false (.imm b) (fun m c => alrCore m c) s

theorem exec_jmpAbs (n : Word) (s : State) :
    exec (.jmpAbs n) s = touchesCpu 3 (fun c => setPc n c) s :=
  rfl

theorem exec_eorAbs (n : Word) (s : State) :
    exec (.eorAbs n) s = reads 4 false (.mem (.abs n)) (fun m c => loadA (c.a ^^^ m) c) s :=
  readInstr_eq 4 false (.mem (.abs n)) (fun m c => loadA (c.a ^^^ m) c) s

theorem exec_lsrAbs (n : Word) (s : State) :
    exec (.lsrAbs n) s = modifies 6 (.abs n) (fun m => shiftRight m) (fun m n c => setNZ n (setC (m.getLsbD 0) c)) s :=
  modifyInstr_eq 6 (.abs n) (fun m _ => shiftRight m) (fun m n c => setNZ n (setC (m.getLsbD 0) c)) s

theorem exec_sreAbs (n : Word) (s : State) :
    exec (.sreAbs n) s = modifies 6 (.abs n) (fun m => shiftRight m) (fun m n c => loadA (c.a ^^^ n) (setC (m.getLsbD 0) c)) s :=
  modifyInstr_eq 6 (.abs n) (fun m _ => shiftRight m) (fun m n c => loadA (c.a ^^^ n) (setC (m.getLsbD 0) c)) s

theorem exec_bvcRel (d : Byte) (s : State) :
    exec (.bvcRel d) s = branch (!s.cpu.p.v) d s :=
  rfl

theorem exec_eorIzy (b : Byte) (s : State) :
    exec (.eorIzy b) s = reads 5 true (.mem (.izy b)) (fun m c => loadA (c.a ^^^ m) c) s :=
  readInstr_eq 5 true (.mem (.izy b)) (fun m c => loadA (c.a ^^^ m) c) s

theorem exec_jamImp52 (s : State) :
    exec .jamImp52 s = haltIllegal 0x52 s :=
  rfl

theorem exec_sreIzy (b : Byte) (s : State) :
    exec (.sreIzy b) s = modifies 8 (.izy b) (fun m => shiftRight m) (fun m n c => loadA (c.a ^^^ n) (setC (m.getLsbD 0) c)) s :=
  modifyInstr_eq 8 (.izy b) (fun m _ => shiftRight m) (fun m n c => loadA (c.a ^^^ n) (setC (m.getLsbD 0) c)) s

theorem exec_nopZpx54 (b : Byte) (s : State) :
    exec (.nopZpx54 b) s = reads 4 false (.mem (.zpx b)) (fun _ c => c) s :=
  readInstr_eq 4 false (.mem (.zpx b)) (fun _ c => c) s

theorem exec_eorZpx (b : Byte) (s : State) :
    exec (.eorZpx b) s = reads 4 false (.mem (.zpx b)) (fun m c => loadA (c.a ^^^ m) c) s :=
  readInstr_eq 4 false (.mem (.zpx b)) (fun m c => loadA (c.a ^^^ m) c) s

theorem exec_lsrZpx (b : Byte) (s : State) :
    exec (.lsrZpx b) s = modifies 6 (.zpx b) (fun m => shiftRight m) (fun m n c => setNZ n (setC (m.getLsbD 0) c)) s :=
  modifyInstr_eq 6 (.zpx b) (fun m _ => shiftRight m) (fun m n c => setNZ n (setC (m.getLsbD 0) c)) s

theorem exec_sreZpx (b : Byte) (s : State) :
    exec (.sreZpx b) s = modifies 6 (.zpx b) (fun m => shiftRight m) (fun m n c => loadA (c.a ^^^ n) (setC (m.getLsbD 0) c)) s :=
  modifyInstr_eq 6 (.zpx b) (fun m _ => shiftRight m) (fun m n c => loadA (c.a ^^^ n) (setC (m.getLsbD 0) c)) s

theorem exec_cliImp (s : State) :
    exec .cliImp s = touchesCpu 2 (fun c => setI false c) s :=
  rfl

theorem exec_eorAby (n : Word) (s : State) :
    exec (.eorAby n) s = reads 4 true (.mem (.aby n)) (fun m c => loadA (c.a ^^^ m) c) s :=
  readInstr_eq 4 true (.mem (.aby n)) (fun m c => loadA (c.a ^^^ m) c) s

theorem exec_nopImp5A (s : State) :
    exec .nopImp5A s = touchesCpu 2 (fun c => c) s :=
  rfl

theorem exec_sreAby (n : Word) (s : State) :
    exec (.sreAby n) s = modifies 7 (.aby n) (fun m => shiftRight m) (fun m n c => loadA (c.a ^^^ n) (setC (m.getLsbD 0) c)) s :=
  modifyInstr_eq 7 (.aby n) (fun m _ => shiftRight m) (fun m n c => loadA (c.a ^^^ n) (setC (m.getLsbD 0) c)) s

theorem exec_nopAbx5C (n : Word) (s : State) :
    exec (.nopAbx5C n) s = reads 4 true (.mem (.abx n)) (fun _ c => c) s :=
  readInstr_eq 4 true (.mem (.abx n)) (fun _ c => c) s

theorem exec_eorAbx (n : Word) (s : State) :
    exec (.eorAbx n) s = reads 4 true (.mem (.abx n)) (fun m c => loadA (c.a ^^^ m) c) s :=
  readInstr_eq 4 true (.mem (.abx n)) (fun m c => loadA (c.a ^^^ m) c) s

theorem exec_lsrAbx (n : Word) (s : State) :
    exec (.lsrAbx n) s = modifies 7 (.abx n) (fun m => shiftRight m) (fun m n c => setNZ n (setC (m.getLsbD 0) c)) s :=
  modifyInstr_eq 7 (.abx n) (fun m _ => shiftRight m) (fun m n c => setNZ n (setC (m.getLsbD 0) c)) s

theorem exec_sreAbx (n : Word) (s : State) :
    exec (.sreAbx n) s = modifies 7 (.abx n) (fun m => shiftRight m) (fun m n c => loadA (c.a ^^^ n) (setC (m.getLsbD 0) c)) s :=
  modifyInstr_eq 7 (.abx n) (fun m _ => shiftRight m) (fun m n c => loadA (c.a ^^^ n) (setC (m.getLsbD 0) c)) s

theorem exec_adcIzx (b : Byte) (s : State) :
    exec (.adcIzx b) s = reads 6 false (.mem (.izx b)) (fun m c => addCore s.params.decimalEnabled m c) s :=
  readInstr_eq 6 false (.mem (.izx b)) (fun m c => addCore s.params.decimalEnabled m c) s

theorem exec_jamImp62 (s : State) :
    exec .jamImp62 s = haltIllegal 0x62 s :=
  rfl

theorem exec_rraIzx (b : Byte) (s : State) :
    exec (.rraIzx b) s = modifies 8 (.izx b) (fun m => rotateRight m s.cpu.p.c) (fun m n c => addCore s.params.decimalEnabled n (setC (m.getLsbD 0) c)) s :=
  modifyInstr_eq 8 (.izx b) (fun m c => rotateRight m c.p.c) (fun m n c => addCore s.params.decimalEnabled n (setC (m.getLsbD 0) c)) s

theorem exec_nopZp64 (b : Byte) (s : State) :
    exec (.nopZp64 b) s = reads 3 false (.mem (.zp b)) (fun _ c => c) s :=
  readInstr_eq 3 false (.mem (.zp b)) (fun _ c => c) s

theorem exec_adcZp (b : Byte) (s : State) :
    exec (.adcZp b) s = reads 3 false (.mem (.zp b)) (fun m c => addCore s.params.decimalEnabled m c) s :=
  readInstr_eq 3 false (.mem (.zp b)) (fun m c => addCore s.params.decimalEnabled m c) s

theorem exec_rorZp (b : Byte) (s : State) :
    exec (.rorZp b) s = modifies 5 (.zp b) (fun m => rotateRight m s.cpu.p.c) (fun m n c => setNZ n (setC (m.getLsbD 0) c)) s :=
  modifyInstr_eq 5 (.zp b) (fun m c => rotateRight m c.p.c) (fun m n c => setNZ n (setC (m.getLsbD 0) c)) s

theorem exec_rraZp (b : Byte) (s : State) :
    exec (.rraZp b) s = modifies 5 (.zp b) (fun m => rotateRight m s.cpu.p.c) (fun m n c => addCore s.params.decimalEnabled n (setC (m.getLsbD 0) c)) s :=
  modifyInstr_eq 5 (.zp b) (fun m c => rotateRight m c.p.c) (fun m n c => addCore s.params.decimalEnabled n (setC (m.getLsbD 0) c)) s

theorem exec_adcImm (b : Byte) (s : State) :
    exec (.adcImm b) s = reads 2 false (.imm b) (fun m c => addCore s.params.decimalEnabled m c) s :=
  readInstr_eq 2 false (.imm b) (fun m c => addCore s.params.decimalEnabled m c) s

theorem exec_rorAcc (s : State) :
    exec .rorAcc s = touchesCpu 2 (fun c => loadA (rotateRight c.a c.p.c) (setC (c.a.getLsbD 0) c)) s :=
  rfl

theorem exec_arrImm (b : Byte) (s : State) :
    exec (.arrImm b) s = reads 2 false (.imm b) (fun m c => arrCore s.params.decimalEnabled m c) s :=
  readInstr_eq 2 false (.imm b) (fun m c => arrCore s.params.decimalEnabled m c) s

theorem exec_jmpInd (n : Word) (s : State) :
    exec (.jmpInd n) s = .next (charge 5 (mapCpu (setPc (indirectTarget n s).val) (indirectTarget n s).st)) :=
  rfl

theorem exec_adcAbs (n : Word) (s : State) :
    exec (.adcAbs n) s = reads 4 false (.mem (.abs n)) (fun m c => addCore s.params.decimalEnabled m c) s :=
  readInstr_eq 4 false (.mem (.abs n)) (fun m c => addCore s.params.decimalEnabled m c) s

theorem exec_rorAbs (n : Word) (s : State) :
    exec (.rorAbs n) s = modifies 6 (.abs n) (fun m => rotateRight m s.cpu.p.c) (fun m n c => setNZ n (setC (m.getLsbD 0) c)) s :=
  modifyInstr_eq 6 (.abs n) (fun m c => rotateRight m c.p.c) (fun m n c => setNZ n (setC (m.getLsbD 0) c)) s

theorem exec_rraAbs (n : Word) (s : State) :
    exec (.rraAbs n) s = modifies 6 (.abs n) (fun m => rotateRight m s.cpu.p.c) (fun m n c => addCore s.params.decimalEnabled n (setC (m.getLsbD 0) c)) s :=
  modifyInstr_eq 6 (.abs n) (fun m c => rotateRight m c.p.c) (fun m n c => addCore s.params.decimalEnabled n (setC (m.getLsbD 0) c)) s

theorem exec_bvsRel (d : Byte) (s : State) :
    exec (.bvsRel d) s = branch (s.cpu.p.v) d s :=
  rfl

theorem exec_adcIzy (b : Byte) (s : State) :
    exec (.adcIzy b) s = reads 5 true (.mem (.izy b)) (fun m c => addCore s.params.decimalEnabled m c) s :=
  readInstr_eq 5 true (.mem (.izy b)) (fun m c => addCore s.params.decimalEnabled m c) s

theorem exec_jamImp72 (s : State) :
    exec .jamImp72 s = haltIllegal 0x72 s :=
  rfl

theorem exec_rraIzy (b : Byte) (s : State) :
    exec (.rraIzy b) s = modifies 8 (.izy b) (fun m => rotateRight m s.cpu.p.c) (fun m n c => addCore s.params.decimalEnabled n (setC (m.getLsbD 0) c)) s :=
  modifyInstr_eq 8 (.izy b) (fun m c => rotateRight m c.p.c) (fun m n c => addCore s.params.decimalEnabled n (setC (m.getLsbD 0) c)) s

theorem exec_nopZpx74 (b : Byte) (s : State) :
    exec (.nopZpx74 b) s = reads 4 false (.mem (.zpx b)) (fun _ c => c) s :=
  readInstr_eq 4 false (.mem (.zpx b)) (fun _ c => c) s

theorem exec_adcZpx (b : Byte) (s : State) :
    exec (.adcZpx b) s = reads 4 false (.mem (.zpx b)) (fun m c => addCore s.params.decimalEnabled m c) s :=
  readInstr_eq 4 false (.mem (.zpx b)) (fun m c => addCore s.params.decimalEnabled m c) s

theorem exec_rorZpx (b : Byte) (s : State) :
    exec (.rorZpx b) s = modifies 6 (.zpx b) (fun m => rotateRight m s.cpu.p.c) (fun m n c => setNZ n (setC (m.getLsbD 0) c)) s :=
  modifyInstr_eq 6 (.zpx b) (fun m c => rotateRight m c.p.c) (fun m n c => setNZ n (setC (m.getLsbD 0) c)) s

theorem exec_rraZpx (b : Byte) (s : State) :
    exec (.rraZpx b) s = modifies 6 (.zpx b) (fun m => rotateRight m s.cpu.p.c) (fun m n c => addCore s.params.decimalEnabled n (setC (m.getLsbD 0) c)) s :=
  modifyInstr_eq 6 (.zpx b) (fun m c => rotateRight m c.p.c) (fun m n c => addCore s.params.decimalEnabled n (setC (m.getLsbD 0) c)) s

theorem exec_seiImp (s : State) :
    exec .seiImp s = touchesCpu 2 (fun c => setI true c) s :=
  rfl

theorem exec_adcAby (n : Word) (s : State) :
    exec (.adcAby n) s = reads 4 true (.mem (.aby n)) (fun m c => addCore s.params.decimalEnabled m c) s :=
  readInstr_eq 4 true (.mem (.aby n)) (fun m c => addCore s.params.decimalEnabled m c) s

theorem exec_nopImp7A (s : State) :
    exec .nopImp7A s = touchesCpu 2 (fun c => c) s :=
  rfl

theorem exec_rraAby (n : Word) (s : State) :
    exec (.rraAby n) s = modifies 7 (.aby n) (fun m => rotateRight m s.cpu.p.c) (fun m n c => addCore s.params.decimalEnabled n (setC (m.getLsbD 0) c)) s :=
  modifyInstr_eq 7 (.aby n) (fun m c => rotateRight m c.p.c) (fun m n c => addCore s.params.decimalEnabled n (setC (m.getLsbD 0) c)) s

theorem exec_nopAbx7C (n : Word) (s : State) :
    exec (.nopAbx7C n) s = reads 4 true (.mem (.abx n)) (fun _ c => c) s :=
  readInstr_eq 4 true (.mem (.abx n)) (fun _ c => c) s

theorem exec_adcAbx (n : Word) (s : State) :
    exec (.adcAbx n) s = reads 4 true (.mem (.abx n)) (fun m c => addCore s.params.decimalEnabled m c) s :=
  readInstr_eq 4 true (.mem (.abx n)) (fun m c => addCore s.params.decimalEnabled m c) s

theorem exec_rorAbx (n : Word) (s : State) :
    exec (.rorAbx n) s = modifies 7 (.abx n) (fun m => rotateRight m s.cpu.p.c) (fun m n c => setNZ n (setC (m.getLsbD 0) c)) s :=
  modifyInstr_eq 7 (.abx n) (fun m c => rotateRight m c.p.c) (fun m n c => setNZ n (setC (m.getLsbD 0) c)) s

theorem exec_rraAbx (n : Word) (s : State) :
    exec (.rraAbx n) s = modifies 7 (.abx n) (fun m => rotateRight m s.cpu.p.c) (fun m n c => addCore s.params.decimalEnabled n (setC (m.getLsbD 0) c)) s :=
  modifyInstr_eq 7 (.abx n) (fun m c => rotateRight m c.p.c) (fun m n c => addCore s.params.decimalEnabled n (setC (m.getLsbD 0) c)) s

theorem exec_nopImm80 (b : Byte) (s : State) :
    exec (.nopImm80 b) s = reads 2 false (.imm b) (fun _ c => c) s :=
  readInstr_eq 2 false (.imm b) (fun _ c => c) s

theorem exec_staIzx (b : Byte) (s : State) :
    exec (.staIzx b) s = writes 6 (.izx b) s.cpu.a s :=
  writeInstr_eq 6 (.izx b) s.cpu.a s

theorem exec_nopImm82 (b : Byte) (s : State) :
    exec (.nopImm82 b) s = reads 2 false (.imm b) (fun _ c => c) s :=
  readInstr_eq 2 false (.imm b) (fun _ c => c) s

theorem exec_saxIzx (b : Byte) (s : State) :
    exec (.saxIzx b) s = writes 6 (.izx b) (s.cpu.a &&& s.cpu.x) s :=
  writeInstr_eq 6 (.izx b) (s.cpu.a &&& s.cpu.x) s

theorem exec_styZp (b : Byte) (s : State) :
    exec (.styZp b) s = writes 3 (.zp b) s.cpu.y s :=
  writeInstr_eq 3 (.zp b) s.cpu.y s

theorem exec_staZp (b : Byte) (s : State) :
    exec (.staZp b) s = writes 3 (.zp b) s.cpu.a s :=
  writeInstr_eq 3 (.zp b) s.cpu.a s

theorem exec_stxZp (b : Byte) (s : State) :
    exec (.stxZp b) s = writes 3 (.zp b) s.cpu.x s :=
  writeInstr_eq 3 (.zp b) s.cpu.x s

theorem exec_saxZp (b : Byte) (s : State) :
    exec (.saxZp b) s = writes 3 (.zp b) (s.cpu.a &&& s.cpu.x) s :=
  writeInstr_eq 3 (.zp b) (s.cpu.a &&& s.cpu.x) s

theorem exec_deyImp (s : State) :
    exec .deyImp s = touchesCpu 2 (fun c => loadY (c.y - 1) c) s :=
  rfl

theorem exec_nopImm89 (b : Byte) (s : State) :
    exec (.nopImm89 b) s = reads 2 false (.imm b) (fun _ c => c) s :=
  readInstr_eq 2 false (.imm b) (fun _ c => c) s

theorem exec_txaImp (s : State) :
    exec .txaImp s = touchesCpu 2 (fun c => loadA c.x c) s :=
  rfl

theorem exec_xaaImm (b : Byte) (s : State) :
    exec (.xaaImm b) s = haltIllegal 0x8B s :=
  rfl

theorem exec_styAbs (n : Word) (s : State) :
    exec (.styAbs n) s = writes 4 (.abs n) s.cpu.y s :=
  writeInstr_eq 4 (.abs n) s.cpu.y s

theorem exec_staAbs (n : Word) (s : State) :
    exec (.staAbs n) s = writes 4 (.abs n) s.cpu.a s :=
  writeInstr_eq 4 (.abs n) s.cpu.a s

theorem exec_stxAbs (n : Word) (s : State) :
    exec (.stxAbs n) s = writes 4 (.abs n) s.cpu.x s :=
  writeInstr_eq 4 (.abs n) s.cpu.x s

theorem exec_saxAbs (n : Word) (s : State) :
    exec (.saxAbs n) s = writes 4 (.abs n) (s.cpu.a &&& s.cpu.x) s :=
  writeInstr_eq 4 (.abs n) (s.cpu.a &&& s.cpu.x) s

theorem exec_bccRel (d : Byte) (s : State) :
    exec (.bccRel d) s = branch (!s.cpu.p.c) d s :=
  rfl

theorem exec_staIzy (b : Byte) (s : State) :
    exec (.staIzy b) s = writes 6 (.izy b) s.cpu.a s :=
  writeInstr_eq 6 (.izy b) s.cpu.a s

theorem exec_jamImp92 (s : State) :
    exec .jamImp92 s = haltIllegal 0x92 s :=
  rfl

theorem exec_shaIzy (b : Byte) (s : State) :
    exec (.shaIzy b) s = haltIllegal 0x93 s :=
  rfl

theorem exec_styZpx (b : Byte) (s : State) :
    exec (.styZpx b) s = writes 4 (.zpx b) s.cpu.y s :=
  writeInstr_eq 4 (.zpx b) s.cpu.y s

theorem exec_staZpx (b : Byte) (s : State) :
    exec (.staZpx b) s = writes 4 (.zpx b) s.cpu.a s :=
  writeInstr_eq 4 (.zpx b) s.cpu.a s

theorem exec_stxZpy (b : Byte) (s : State) :
    exec (.stxZpy b) s = writes 4 (.zpy b) s.cpu.x s :=
  writeInstr_eq 4 (.zpy b) s.cpu.x s

theorem exec_saxZpy (b : Byte) (s : State) :
    exec (.saxZpy b) s = writes 4 (.zpy b) (s.cpu.a &&& s.cpu.x) s :=
  writeInstr_eq 4 (.zpy b) (s.cpu.a &&& s.cpu.x) s

theorem exec_tyaImp (s : State) :
    exec .tyaImp s = touchesCpu 2 (fun c => loadA c.y c) s :=
  rfl

theorem exec_staAby (n : Word) (s : State) :
    exec (.staAby n) s = writes 5 (.aby n) s.cpu.a s :=
  writeInstr_eq 5 (.aby n) s.cpu.a s

theorem exec_txsImp (s : State) :
    exec .txsImp s = touchesCpu 2 (fun c => setS c.x c) s :=
  rfl

theorem exec_tasAby (n : Word) (s : State) :
    exec (.tasAby n) s = haltIllegal 0x9B s :=
  rfl

theorem exec_shyAbx (n : Word) (s : State) :
    exec (.shyAbx n) s = haltIllegal 0x9C s :=
  rfl

theorem exec_staAbx (n : Word) (s : State) :
    exec (.staAbx n) s = writes 5 (.abx n) s.cpu.a s :=
  writeInstr_eq 5 (.abx n) s.cpu.a s

theorem exec_shxAby (n : Word) (s : State) :
    exec (.shxAby n) s = haltIllegal 0x9E s :=
  rfl

theorem exec_shaAby (n : Word) (s : State) :
    exec (.shaAby n) s = haltIllegal 0x9F s :=
  rfl

theorem exec_ldyImm (b : Byte) (s : State) :
    exec (.ldyImm b) s = reads 2 false (.imm b) (fun m c => loadY m c) s :=
  readInstr_eq 2 false (.imm b) (fun m c => loadY m c) s

theorem exec_ldaIzx (b : Byte) (s : State) :
    exec (.ldaIzx b) s = reads 6 false (.mem (.izx b)) (fun m c => loadA m c) s :=
  readInstr_eq 6 false (.mem (.izx b)) (fun m c => loadA m c) s

theorem exec_ldxImm (b : Byte) (s : State) :
    exec (.ldxImm b) s = reads 2 false (.imm b) (fun m c => loadX m c) s :=
  readInstr_eq 2 false (.imm b) (fun m c => loadX m c) s

theorem exec_laxIzx (b : Byte) (s : State) :
    exec (.laxIzx b) s = reads 6 false (.mem (.izx b)) (fun m c => setX m (loadA m c)) s :=
  readInstr_eq 6 false (.mem (.izx b)) (fun m c => setX m (loadA m c)) s

theorem exec_ldyZp (b : Byte) (s : State) :
    exec (.ldyZp b) s = reads 3 false (.mem (.zp b)) (fun m c => loadY m c) s :=
  readInstr_eq 3 false (.mem (.zp b)) (fun m c => loadY m c) s

theorem exec_ldaZp (b : Byte) (s : State) :
    exec (.ldaZp b) s = reads 3 false (.mem (.zp b)) (fun m c => loadA m c) s :=
  readInstr_eq 3 false (.mem (.zp b)) (fun m c => loadA m c) s

theorem exec_ldxZp (b : Byte) (s : State) :
    exec (.ldxZp b) s = reads 3 false (.mem (.zp b)) (fun m c => loadX m c) s :=
  readInstr_eq 3 false (.mem (.zp b)) (fun m c => loadX m c) s

theorem exec_laxZp (b : Byte) (s : State) :
    exec (.laxZp b) s = reads 3 false (.mem (.zp b)) (fun m c => setX m (loadA m c)) s :=
  readInstr_eq 3 false (.mem (.zp b)) (fun m c => setX m (loadA m c)) s

theorem exec_tayImp (s : State) :
    exec .tayImp s = touchesCpu 2 (fun c => loadY c.a c) s :=
  rfl

theorem exec_ldaImm (b : Byte) (s : State) :
    exec (.ldaImm b) s = reads 2 false (.imm b) (fun m c => loadA m c) s :=
  readInstr_eq 2 false (.imm b) (fun m c => loadA m c) s

theorem exec_taxImp (s : State) :
    exec .taxImp s = touchesCpu 2 (fun c => loadX c.a c) s :=
  rfl

theorem exec_lxaImm (b : Byte) (s : State) :
    exec (.lxaImm b) s = haltIllegal 0xAB s :=
  rfl

theorem exec_ldyAbs (n : Word) (s : State) :
    exec (.ldyAbs n) s = reads 4 false (.mem (.abs n)) (fun m c => loadY m c) s :=
  readInstr_eq 4 false (.mem (.abs n)) (fun m c => loadY m c) s

theorem exec_ldaAbs (n : Word) (s : State) :
    exec (.ldaAbs n) s = reads 4 false (.mem (.abs n)) (fun m c => loadA m c) s :=
  readInstr_eq 4 false (.mem (.abs n)) (fun m c => loadA m c) s

theorem exec_ldxAbs (n : Word) (s : State) :
    exec (.ldxAbs n) s = reads 4 false (.mem (.abs n)) (fun m c => loadX m c) s :=
  readInstr_eq 4 false (.mem (.abs n)) (fun m c => loadX m c) s

theorem exec_laxAbs (n : Word) (s : State) :
    exec (.laxAbs n) s = reads 4 false (.mem (.abs n)) (fun m c => setX m (loadA m c)) s :=
  readInstr_eq 4 false (.mem (.abs n)) (fun m c => setX m (loadA m c)) s

theorem exec_bcsRel (d : Byte) (s : State) :
    exec (.bcsRel d) s = branch (s.cpu.p.c) d s :=
  rfl

theorem exec_ldaIzy (b : Byte) (s : State) :
    exec (.ldaIzy b) s = reads 5 true (.mem (.izy b)) (fun m c => loadA m c) s :=
  readInstr_eq 5 true (.mem (.izy b)) (fun m c => loadA m c) s

theorem exec_jamImpB2 (s : State) :
    exec .jamImpB2 s = haltIllegal 0xB2 s :=
  rfl

theorem exec_laxIzy (b : Byte) (s : State) :
    exec (.laxIzy b) s = reads 5 true (.mem (.izy b)) (fun m c => setX m (loadA m c)) s :=
  readInstr_eq 5 true (.mem (.izy b)) (fun m c => setX m (loadA m c)) s

theorem exec_ldyZpx (b : Byte) (s : State) :
    exec (.ldyZpx b) s = reads 4 false (.mem (.zpx b)) (fun m c => loadY m c) s :=
  readInstr_eq 4 false (.mem (.zpx b)) (fun m c => loadY m c) s

theorem exec_ldaZpx (b : Byte) (s : State) :
    exec (.ldaZpx b) s = reads 4 false (.mem (.zpx b)) (fun m c => loadA m c) s :=
  readInstr_eq 4 false (.mem (.zpx b)) (fun m c => loadA m c) s

theorem exec_ldxZpy (b : Byte) (s : State) :
    exec (.ldxZpy b) s = reads 4 false (.mem (.zpy b)) (fun m c => loadX m c) s :=
  readInstr_eq 4 false (.mem (.zpy b)) (fun m c => loadX m c) s

theorem exec_laxZpy (b : Byte) (s : State) :
    exec (.laxZpy b) s = reads 4 false (.mem (.zpy b)) (fun m c => setX m (loadA m c)) s :=
  readInstr_eq 4 false (.mem (.zpy b)) (fun m c => setX m (loadA m c)) s

theorem exec_clvImp (s : State) :
    exec .clvImp s = touchesCpu 2 (fun c => setV false c) s :=
  rfl

theorem exec_ldaAby (n : Word) (s : State) :
    exec (.ldaAby n) s = reads 4 true (.mem (.aby n)) (fun m c => loadA m c) s :=
  readInstr_eq 4 true (.mem (.aby n)) (fun m c => loadA m c) s

theorem exec_tsxImp (s : State) :
    exec .tsxImp s = touchesCpu 2 (fun c => loadX c.s c) s :=
  rfl

theorem exec_lasAby (n : Word) (s : State) :
    exec (.lasAby n) s = reads 4 true (.mem (.aby n)) (fun m c => lasCore m c) s :=
  readInstr_eq 4 true (.mem (.aby n)) (fun m c => lasCore m c) s

theorem exec_ldyAbx (n : Word) (s : State) :
    exec (.ldyAbx n) s = reads 4 true (.mem (.abx n)) (fun m c => loadY m c) s :=
  readInstr_eq 4 true (.mem (.abx n)) (fun m c => loadY m c) s

theorem exec_ldaAbx (n : Word) (s : State) :
    exec (.ldaAbx n) s = reads 4 true (.mem (.abx n)) (fun m c => loadA m c) s :=
  readInstr_eq 4 true (.mem (.abx n)) (fun m c => loadA m c) s

theorem exec_ldxAby (n : Word) (s : State) :
    exec (.ldxAby n) s = reads 4 true (.mem (.aby n)) (fun m c => loadX m c) s :=
  readInstr_eq 4 true (.mem (.aby n)) (fun m c => loadX m c) s

theorem exec_laxAby (n : Word) (s : State) :
    exec (.laxAby n) s = reads 4 true (.mem (.aby n)) (fun m c => setX m (loadA m c)) s :=
  readInstr_eq 4 true (.mem (.aby n)) (fun m c => setX m (loadA m c)) s

theorem exec_cpyImm (b : Byte) (s : State) :
    exec (.cpyImm b) s = reads 2 false (.imm b) (fun m c => compareCore c.y m c) s :=
  readInstr_eq 2 false (.imm b) (fun m c => compareCore c.y m c) s

theorem exec_cmpIzx (b : Byte) (s : State) :
    exec (.cmpIzx b) s = reads 6 false (.mem (.izx b)) (fun m c => compareCore c.a m c) s :=
  readInstr_eq 6 false (.mem (.izx b)) (fun m c => compareCore c.a m c) s

theorem exec_nopImmC2 (b : Byte) (s : State) :
    exec (.nopImmC2 b) s = reads 2 false (.imm b) (fun _ c => c) s :=
  readInstr_eq 2 false (.imm b) (fun _ c => c) s

theorem exec_dcpIzx (b : Byte) (s : State) :
    exec (.dcpIzx b) s = modifies 8 (.izx b) (fun m => m - 1) (fun _ n c => compareCore c.a n c) s :=
  modifyInstr_eq 8 (.izx b) (fun m _ => m - 1) (fun _ n c => compareCore c.a n c) s

theorem exec_cpyZp (b : Byte) (s : State) :
    exec (.cpyZp b) s = reads 3 false (.mem (.zp b)) (fun m c => compareCore c.y m c) s :=
  readInstr_eq 3 false (.mem (.zp b)) (fun m c => compareCore c.y m c) s

theorem exec_cmpZp (b : Byte) (s : State) :
    exec (.cmpZp b) s = reads 3 false (.mem (.zp b)) (fun m c => compareCore c.a m c) s :=
  readInstr_eq 3 false (.mem (.zp b)) (fun m c => compareCore c.a m c) s

theorem exec_decZp (b : Byte) (s : State) :
    exec (.decZp b) s = modifies 5 (.zp b) (fun m => m - 1) (fun _ n c => setNZ n c) s :=
  modifyInstr_eq 5 (.zp b) (fun m _ => m - 1) (fun _ n c => setNZ n c) s

theorem exec_dcpZp (b : Byte) (s : State) :
    exec (.dcpZp b) s = modifies 5 (.zp b) (fun m => m - 1) (fun _ n c => compareCore c.a n c) s :=
  modifyInstr_eq 5 (.zp b) (fun m _ => m - 1) (fun _ n c => compareCore c.a n c) s

theorem exec_inyImp (s : State) :
    exec .inyImp s = touchesCpu 2 (fun c => loadY (c.y + 1) c) s :=
  rfl

theorem exec_cmpImm (b : Byte) (s : State) :
    exec (.cmpImm b) s = reads 2 false (.imm b) (fun m c => compareCore c.a m c) s :=
  readInstr_eq 2 false (.imm b) (fun m c => compareCore c.a m c) s

theorem exec_dexImp (s : State) :
    exec .dexImp s = touchesCpu 2 (fun c => loadX (c.x - 1) c) s :=
  rfl

theorem exec_axsImm (b : Byte) (s : State) :
    exec (.axsImm b) s = reads 2 false (.imm b) (fun m c => axsCore m c) s :=
  readInstr_eq 2 false (.imm b) (fun m c => axsCore m c) s

theorem exec_cpyAbs (n : Word) (s : State) :
    exec (.cpyAbs n) s = reads 4 false (.mem (.abs n)) (fun m c => compareCore c.y m c) s :=
  readInstr_eq 4 false (.mem (.abs n)) (fun m c => compareCore c.y m c) s

theorem exec_cmpAbs (n : Word) (s : State) :
    exec (.cmpAbs n) s = reads 4 false (.mem (.abs n)) (fun m c => compareCore c.a m c) s :=
  readInstr_eq 4 false (.mem (.abs n)) (fun m c => compareCore c.a m c) s

theorem exec_decAbs (n : Word) (s : State) :
    exec (.decAbs n) s = modifies 6 (.abs n) (fun m => m - 1) (fun _ n c => setNZ n c) s :=
  modifyInstr_eq 6 (.abs n) (fun m _ => m - 1) (fun _ n c => setNZ n c) s

theorem exec_dcpAbs (n : Word) (s : State) :
    exec (.dcpAbs n) s = modifies 6 (.abs n) (fun m => m - 1) (fun _ n c => compareCore c.a n c) s :=
  modifyInstr_eq 6 (.abs n) (fun m _ => m - 1) (fun _ n c => compareCore c.a n c) s

theorem exec_bneRel (d : Byte) (s : State) :
    exec (.bneRel d) s = branch (!s.cpu.p.z) d s :=
  rfl

theorem exec_cmpIzy (b : Byte) (s : State) :
    exec (.cmpIzy b) s = reads 5 true (.mem (.izy b)) (fun m c => compareCore c.a m c) s :=
  readInstr_eq 5 true (.mem (.izy b)) (fun m c => compareCore c.a m c) s

theorem exec_jamImpD2 (s : State) :
    exec .jamImpD2 s = haltIllegal 0xD2 s :=
  rfl

theorem exec_dcpIzy (b : Byte) (s : State) :
    exec (.dcpIzy b) s = modifies 8 (.izy b) (fun m => m - 1) (fun _ n c => compareCore c.a n c) s :=
  modifyInstr_eq 8 (.izy b) (fun m _ => m - 1) (fun _ n c => compareCore c.a n c) s

theorem exec_nopZpxD4 (b : Byte) (s : State) :
    exec (.nopZpxD4 b) s = reads 4 false (.mem (.zpx b)) (fun _ c => c) s :=
  readInstr_eq 4 false (.mem (.zpx b)) (fun _ c => c) s

theorem exec_cmpZpx (b : Byte) (s : State) :
    exec (.cmpZpx b) s = reads 4 false (.mem (.zpx b)) (fun m c => compareCore c.a m c) s :=
  readInstr_eq 4 false (.mem (.zpx b)) (fun m c => compareCore c.a m c) s

theorem exec_decZpx (b : Byte) (s : State) :
    exec (.decZpx b) s = modifies 6 (.zpx b) (fun m => m - 1) (fun _ n c => setNZ n c) s :=
  modifyInstr_eq 6 (.zpx b) (fun m _ => m - 1) (fun _ n c => setNZ n c) s

theorem exec_dcpZpx (b : Byte) (s : State) :
    exec (.dcpZpx b) s = modifies 6 (.zpx b) (fun m => m - 1) (fun _ n c => compareCore c.a n c) s :=
  modifyInstr_eq 6 (.zpx b) (fun m _ => m - 1) (fun _ n c => compareCore c.a n c) s

theorem exec_cldImp (s : State) :
    exec .cldImp s = touchesCpu 2 (fun c => setD false c) s :=
  rfl

theorem exec_cmpAby (n : Word) (s : State) :
    exec (.cmpAby n) s = reads 4 true (.mem (.aby n)) (fun m c => compareCore c.a m c) s :=
  readInstr_eq 4 true (.mem (.aby n)) (fun m c => compareCore c.a m c) s

theorem exec_nopImpDA (s : State) :
    exec .nopImpDA s = touchesCpu 2 (fun c => c) s :=
  rfl

theorem exec_dcpAby (n : Word) (s : State) :
    exec (.dcpAby n) s = modifies 7 (.aby n) (fun m => m - 1) (fun _ n c => compareCore c.a n c) s :=
  modifyInstr_eq 7 (.aby n) (fun m _ => m - 1) (fun _ n c => compareCore c.a n c) s

theorem exec_nopAbxDC (n : Word) (s : State) :
    exec (.nopAbxDC n) s = reads 4 true (.mem (.abx n)) (fun _ c => c) s :=
  readInstr_eq 4 true (.mem (.abx n)) (fun _ c => c) s

theorem exec_cmpAbx (n : Word) (s : State) :
    exec (.cmpAbx n) s = reads 4 true (.mem (.abx n)) (fun m c => compareCore c.a m c) s :=
  readInstr_eq 4 true (.mem (.abx n)) (fun m c => compareCore c.a m c) s

theorem exec_decAbx (n : Word) (s : State) :
    exec (.decAbx n) s = modifies 7 (.abx n) (fun m => m - 1) (fun _ n c => setNZ n c) s :=
  modifyInstr_eq 7 (.abx n) (fun m _ => m - 1) (fun _ n c => setNZ n c) s

theorem exec_dcpAbx (n : Word) (s : State) :
    exec (.dcpAbx n) s = modifies 7 (.abx n) (fun m => m - 1) (fun _ n c => compareCore c.a n c) s :=
  modifyInstr_eq 7 (.abx n) (fun m _ => m - 1) (fun _ n c => compareCore c.a n c) s

theorem exec_cpxImm (b : Byte) (s : State) :
    exec (.cpxImm b) s = reads 2 false (.imm b) (fun m c => compareCore c.x m c) s :=
  readInstr_eq 2 false (.imm b) (fun m c => compareCore c.x m c) s

theorem exec_sbcIzx (b : Byte) (s : State) :
    exec (.sbcIzx b) s = reads 6 false (.mem (.izx b)) (fun m c => subCore s.params.decimalEnabled m c) s :=
  readInstr_eq 6 false (.mem (.izx b)) (fun m c => subCore s.params.decimalEnabled m c) s

theorem exec_nopImmE2 (b : Byte) (s : State) :
    exec (.nopImmE2 b) s = reads 2 false (.imm b) (fun _ c => c) s :=
  readInstr_eq 2 false (.imm b) (fun _ c => c) s

theorem exec_iscIzx (b : Byte) (s : State) :
    exec (.iscIzx b) s = modifies 8 (.izx b) (fun m => m + 1) (fun _ n c => subCore s.params.decimalEnabled n c) s :=
  modifyInstr_eq 8 (.izx b) (fun m _ => m + 1) (fun _ n c => subCore s.params.decimalEnabled n c) s

theorem exec_cpxZp (b : Byte) (s : State) :
    exec (.cpxZp b) s = reads 3 false (.mem (.zp b)) (fun m c => compareCore c.x m c) s :=
  readInstr_eq 3 false (.mem (.zp b)) (fun m c => compareCore c.x m c) s

theorem exec_sbcZp (b : Byte) (s : State) :
    exec (.sbcZp b) s = reads 3 false (.mem (.zp b)) (fun m c => subCore s.params.decimalEnabled m c) s :=
  readInstr_eq 3 false (.mem (.zp b)) (fun m c => subCore s.params.decimalEnabled m c) s

theorem exec_incZp (b : Byte) (s : State) :
    exec (.incZp b) s = modifies 5 (.zp b) (fun m => m + 1) (fun _ n c => setNZ n c) s :=
  modifyInstr_eq 5 (.zp b) (fun m _ => m + 1) (fun _ n c => setNZ n c) s

theorem exec_iscZp (b : Byte) (s : State) :
    exec (.iscZp b) s = modifies 5 (.zp b) (fun m => m + 1) (fun _ n c => subCore s.params.decimalEnabled n c) s :=
  modifyInstr_eq 5 (.zp b) (fun m _ => m + 1) (fun _ n c => subCore s.params.decimalEnabled n c) s

theorem exec_inxImp (s : State) :
    exec .inxImp s = touchesCpu 2 (fun c => loadX (c.x + 1) c) s :=
  rfl

theorem exec_sbcImm (b : Byte) (s : State) :
    exec (.sbcImm b) s = reads 2 false (.imm b) (fun m c => subCore s.params.decimalEnabled m c) s :=
  readInstr_eq 2 false (.imm b) (fun m c => subCore s.params.decimalEnabled m c) s

theorem exec_nopImp (s : State) :
    exec .nopImp s = touchesCpu 2 (fun c => c) s :=
  rfl

theorem exec_sbcImmEB (b : Byte) (s : State) :
    exec (.sbcImmEB b) s = reads 2 false (.imm b) (fun m c => subCore s.params.decimalEnabled m c) s :=
  readInstr_eq 2 false (.imm b) (fun m c => subCore s.params.decimalEnabled m c) s

theorem exec_cpxAbs (n : Word) (s : State) :
    exec (.cpxAbs n) s = reads 4 false (.mem (.abs n)) (fun m c => compareCore c.x m c) s :=
  readInstr_eq 4 false (.mem (.abs n)) (fun m c => compareCore c.x m c) s

theorem exec_sbcAbs (n : Word) (s : State) :
    exec (.sbcAbs n) s = reads 4 false (.mem (.abs n)) (fun m c => subCore s.params.decimalEnabled m c) s :=
  readInstr_eq 4 false (.mem (.abs n)) (fun m c => subCore s.params.decimalEnabled m c) s

theorem exec_incAbs (n : Word) (s : State) :
    exec (.incAbs n) s = modifies 6 (.abs n) (fun m => m + 1) (fun _ n c => setNZ n c) s :=
  modifyInstr_eq 6 (.abs n) (fun m _ => m + 1) (fun _ n c => setNZ n c) s

theorem exec_iscAbs (n : Word) (s : State) :
    exec (.iscAbs n) s = modifies 6 (.abs n) (fun m => m + 1) (fun _ n c => subCore s.params.decimalEnabled n c) s :=
  modifyInstr_eq 6 (.abs n) (fun m _ => m + 1) (fun _ n c => subCore s.params.decimalEnabled n c) s

theorem exec_beqRel (d : Byte) (s : State) :
    exec (.beqRel d) s = branch (s.cpu.p.z) d s :=
  rfl

theorem exec_sbcIzy (b : Byte) (s : State) :
    exec (.sbcIzy b) s = reads 5 true (.mem (.izy b)) (fun m c => subCore s.params.decimalEnabled m c) s :=
  readInstr_eq 5 true (.mem (.izy b)) (fun m c => subCore s.params.decimalEnabled m c) s

theorem exec_jamImpF2 (s : State) :
    exec .jamImpF2 s = haltIllegal 0xF2 s :=
  rfl

theorem exec_iscIzy (b : Byte) (s : State) :
    exec (.iscIzy b) s = modifies 8 (.izy b) (fun m => m + 1) (fun _ n c => subCore s.params.decimalEnabled n c) s :=
  modifyInstr_eq 8 (.izy b) (fun m _ => m + 1) (fun _ n c => subCore s.params.decimalEnabled n c) s

theorem exec_nopZpxF4 (b : Byte) (s : State) :
    exec (.nopZpxF4 b) s = reads 4 false (.mem (.zpx b)) (fun _ c => c) s :=
  readInstr_eq 4 false (.mem (.zpx b)) (fun _ c => c) s

theorem exec_sbcZpx (b : Byte) (s : State) :
    exec (.sbcZpx b) s = reads 4 false (.mem (.zpx b)) (fun m c => subCore s.params.decimalEnabled m c) s :=
  readInstr_eq 4 false (.mem (.zpx b)) (fun m c => subCore s.params.decimalEnabled m c) s

theorem exec_incZpx (b : Byte) (s : State) :
    exec (.incZpx b) s = modifies 6 (.zpx b) (fun m => m + 1) (fun _ n c => setNZ n c) s :=
  modifyInstr_eq 6 (.zpx b) (fun m _ => m + 1) (fun _ n c => setNZ n c) s

theorem exec_iscZpx (b : Byte) (s : State) :
    exec (.iscZpx b) s = modifies 6 (.zpx b) (fun m => m + 1) (fun _ n c => subCore s.params.decimalEnabled n c) s :=
  modifyInstr_eq 6 (.zpx b) (fun m _ => m + 1) (fun _ n c => subCore s.params.decimalEnabled n c) s

theorem exec_sedImp (s : State) :
    exec .sedImp s = touchesCpu 2 (fun c => setD true c) s :=
  rfl

theorem exec_sbcAby (n : Word) (s : State) :
    exec (.sbcAby n) s = reads 4 true (.mem (.aby n)) (fun m c => subCore s.params.decimalEnabled m c) s :=
  readInstr_eq 4 true (.mem (.aby n)) (fun m c => subCore s.params.decimalEnabled m c) s

theorem exec_nopImpFA (s : State) :
    exec .nopImpFA s = touchesCpu 2 (fun c => c) s :=
  rfl

theorem exec_iscAby (n : Word) (s : State) :
    exec (.iscAby n) s = modifies 7 (.aby n) (fun m => m + 1) (fun _ n c => subCore s.params.decimalEnabled n c) s :=
  modifyInstr_eq 7 (.aby n) (fun m _ => m + 1) (fun _ n c => subCore s.params.decimalEnabled n c) s

theorem exec_nopAbxFC (n : Word) (s : State) :
    exec (.nopAbxFC n) s = reads 4 true (.mem (.abx n)) (fun _ c => c) s :=
  readInstr_eq 4 true (.mem (.abx n)) (fun _ c => c) s

theorem exec_sbcAbx (n : Word) (s : State) :
    exec (.sbcAbx n) s = reads 4 true (.mem (.abx n)) (fun m c => subCore s.params.decimalEnabled m c) s :=
  readInstr_eq 4 true (.mem (.abx n)) (fun m c => subCore s.params.decimalEnabled m c) s

theorem exec_incAbx (n : Word) (s : State) :
    exec (.incAbx n) s = modifies 7 (.abx n) (fun m => m + 1) (fun _ n c => setNZ n c) s :=
  modifyInstr_eq 7 (.abx n) (fun m _ => m + 1) (fun _ n c => setNZ n c) s

theorem exec_iscAbx (n : Word) (s : State) :
    exec (.iscAbx n) s = modifies 7 (.abx n) (fun m => m + 1) (fun _ n c => subCore s.params.decimalEnabled n c) s :=
  modifyInstr_eq 7 (.abx n) (fun m _ => m + 1) (fun _ n c => subCore s.params.decimalEnabled n c) s

end Sys2Proof.Machine
end

