-- ==== Sys2Proof/Laws/Exec.lean ====
section
/-! SUPPORT. What `exec` can answer, by access class, said once for all 256 instructions; and in one piece each for the
eight that use the stack or a vector. -/

namespace Sys2Proof.Machine

/-- The answer of an instruction by its access class; nothing is said here of the stack instructions. -/
def AnswersByClass (i : Instr) (s : State) : Prop :=
  match i.access with
  | .idle => ∃ n f, exec i s = touchesCpu n f s
  | .read src => ∃ n p f, exec i s = reads n p src f s
  | .write m => ∃ n v, exec i s = writes n m v s
  | .modify m => ∃ n f g, exec i s = modifies n m f g s
  | .pointer n => exec i s = .next (charge 5 (mapCpu (setPc (indirectTarget n s).val) (indirectTarget n s).st))
  | .halt => exec i s = haltIllegal i.opcode s
  | .push _ => True
  | .pull _ => True
  | .brk => exec i s = brk s

/-- Every instruction answers as its access class says. -/
theorem exec_byClass (i : Instr) (s : State) : AnswersByClass i s := by
  cases i with
  | brkImp => exact exec_brkImp s
  | oraIzx b => exact ⟨_, _, _, exec_oraIzx b s⟩
  | jamImp02 => exact exec_jamImp02 s
  | sloIzx b => exact ⟨_, _, _, exec_sloIzx b s⟩
  | nopZp04 b => exact ⟨_, _, _, exec_nopZp04 b s⟩
  | oraZp b => exact ⟨_, _, _, exec_oraZp b s⟩
  | aslZp b => exact ⟨_, _, _, exec_aslZp b s⟩
  | sloZp b => exact ⟨_, _, _, exec_sloZp b s⟩
  | phpImp => exact trivial
  | oraImm b => exact ⟨_, _, _, exec_oraImm b s⟩
  | aslAcc => exact ⟨_, _, exec_aslAcc s⟩
  | ancImm0B b => exact ⟨_, _, _, exec_ancImm0B b s⟩
  | nopAbs n => exact ⟨_, _, _, exec_nopAbs n s⟩
  | oraAbs n => exact ⟨_, _, _, exec_oraAbs n s⟩
  | aslAbs n => exact ⟨_, _, _, exec_aslAbs n s⟩
  | sloAbs n => exact ⟨_, _, _, exec_sloAbs n s⟩
  | bplRel d => exact ⟨_, _, (exec_bplRel d s).trans (branch_eq _ _ _)⟩
  | oraIzy b => exact ⟨_, _, _, exec_oraIzy b s⟩
  | jamImp12 => exact exec_jamImp12 s
  | sloIzy b => exact ⟨_, _, _, exec_sloIzy b s⟩
  | nopZpx14 b => exact ⟨_, _, _, exec_nopZpx14 b s⟩
  | oraZpx b => exact ⟨_, _, _, exec_oraZpx b s⟩
  | aslZpx b => exact ⟨_, _, _, exec_aslZpx b s⟩
  | sloZpx b => exact ⟨_, _, _, exec_sloZpx b s⟩
  | clcImp => exact ⟨_, _, exec_clcImp s⟩
  | oraAby n => exact ⟨_, _, _, exec_oraAby n s⟩
  | nopImp1A => exact ⟨_, _, exec_nopImp1A s⟩
  | sloAby n => exact ⟨_, _, _, exec_sloAby n s⟩
  | nopAbx1C n => exact ⟨_, _, _, exec_nopAbx1C n s⟩
  | oraAbx n => exact ⟨_, _, _, exec_oraAbx n s⟩
  | aslAbx n => exact ⟨_, _, _, exec_aslAbx n s⟩
  | sloAbx n => exact ⟨_, _, _, exec_sloAbx n s⟩
  | jsrAbs _ => exact trivial
  | andIzx b => exact ⟨_, _, _, exec_andIzx b s⟩
  | jamImp22 => exact exec_jamImp22 s
  | rlaIzx b => exact ⟨_, _, _, exec_rlaIzx b s⟩
  | bitZp b => exact ⟨_, _, _, exec_bitZp b s⟩
  | andZp b => exact ⟨_, _, _, exec_andZp b s⟩
  | rolZp b => exact ⟨_, _, _, exec_rolZp b s⟩
  | rlaZp b => exact ⟨_, _, _, exec_rlaZp b s⟩
  | plpImp => exact trivial
  | andImm b => exact ⟨_, _, _, exec_andImm b s⟩
  | rolAcc => exact ⟨_, _, exec_rolAcc s⟩
  | ancImm2B b => exact ⟨_, _, _, exec_ancImm2B b s⟩
  | bitAbs n => exact ⟨_, _, _, exec_bitAbs n s⟩
  | andAbs n => exact ⟨_, _, _, exec_andAbs n s⟩
  | rolAbs n => exact ⟨_, _, _, exec_rolAbs n s⟩
  | rlaAbs n => exact ⟨_, _, _, exec_rlaAbs n s⟩
  | bmiRel d => exact ⟨_, _, (exec_bmiRel d s).trans (branch_eq _ _ _)⟩
  | andIzy b => exact ⟨_, _, _, exec_andIzy b s⟩
  | jamImp32 => exact exec_jamImp32 s
  | rlaIzy b => exact ⟨_, _, _, exec_rlaIzy b s⟩
  | nopZpx34 b => exact ⟨_, _, _, exec_nopZpx34 b s⟩
  | andZpx b => exact ⟨_, _, _, exec_andZpx b s⟩
  | rolZpx b => exact ⟨_, _, _, exec_rolZpx b s⟩
  | rlaZpx b => exact ⟨_, _, _, exec_rlaZpx b s⟩
  | secImp => exact ⟨_, _, exec_secImp s⟩
  | andAby n => exact ⟨_, _, _, exec_andAby n s⟩
  | nopImp3A => exact ⟨_, _, exec_nopImp3A s⟩
  | rlaAby n => exact ⟨_, _, _, exec_rlaAby n s⟩
  | nopAbx3C n => exact ⟨_, _, _, exec_nopAbx3C n s⟩
  | andAbx n => exact ⟨_, _, _, exec_andAbx n s⟩
  | rolAbx n => exact ⟨_, _, _, exec_rolAbx n s⟩
  | rlaAbx n => exact ⟨_, _, _, exec_rlaAbx n s⟩
  | rtiImp => exact trivial
  | eorIzx b => exact ⟨_, _, _, exec_eorIzx b s⟩
  | jamImp42 => exact exec_jamImp42 s
  | sreIzx b => exact ⟨_, _, _, exec_sreIzx b s⟩
  | nopZp44 b => exact ⟨_, _, _, exec_nopZp44 b s⟩
  | eorZp b => exact ⟨_, _, _, exec_eorZp b s⟩
  | lsrZp b => exact ⟨_, _, _, exec_lsrZp b s⟩
  | sreZp b => exact ⟨_, _, _, exec_sreZp b s⟩
  | phaImp => exact trivial
  | eorImm b => exact ⟨_, _, _, exec_eorImm b s⟩
  | lsrAcc => exact ⟨_, _, exec_lsrAcc s⟩
  | alrImm b => exact ⟨_, _, _, exec_alrImm b s⟩
  | jmpAbs n => exact ⟨_, _, exec_jmpAbs n s⟩
  | eorAbs n => exact ⟨_, _, _, exec_eorAbs n s⟩
  | lsrAbs n => exact ⟨_, _, _, exec_lsrAbs n s⟩
  | sreAbs n => exact ⟨_, _, _, exec_sreAbs n s⟩
  | bvcRel d => exact ⟨_, _, (exec_bvcRel d s).trans (branch_eq _ _ _)⟩
  | eorIzy b => exact ⟨_, _, _, exec_eorIzy b s⟩
  | jamImp52 => exact exec_jamImp52 s
  | sreIzy b => exact ⟨_, _, _, exec_sreIzy b s⟩
  | nopZpx54 b => exact ⟨_, _, _, exec_nopZpx54 b s⟩
  | eorZpx b => exact ⟨_, _, _, exec_eorZpx b s⟩
  | lsrZpx b => exact ⟨_, _, _, exec_lsrZpx b s⟩
  | sreZpx b => exact ⟨_, _, _, exec_sreZpx b s⟩
  | cliImp => exact ⟨_, _, exec_cliImp s⟩
  | eorAby n => exact ⟨_, _, _, exec_eorAby n s⟩
  | nopImp5A => exact ⟨_, _, exec_nopImp5A s⟩
  | sreAby n => exact ⟨_, _, _, exec_sreAby n s⟩
  | nopAbx5C n => exact ⟨_, _, _, exec_nopAbx5C n s⟩
  | eorAbx n => exact ⟨_, _, _, exec_eorAbx n s⟩
  | lsrAbx n => exact ⟨_, _, _, exec_lsrAbx n s⟩
  | sreAbx n => exact ⟨_, _, _, exec_sreAbx n s⟩
  | rtsImp => exact trivial
  | adcIzx b => exact ⟨_, _, _, exec_adcIzx b s⟩
  | jamImp62 => exact exec_jamImp62 s
  | rraIzx b => exact ⟨_, _, _, exec_rraIzx b s⟩
  | nopZp64 b => exact ⟨_, _, _, exec_nopZp64 b s⟩
  | adcZp b => exact ⟨_, _, _, exec_adcZp b s⟩
  | rorZp b => exact ⟨_, _, _, exec_rorZp b s⟩
  | rraZp b => exact ⟨_, _, _, exec_rraZp b s⟩
  | plaImp => exact trivial
  | adcImm b => exact ⟨_, _, _, exec_adcImm b s⟩
  | rorAcc => exact ⟨_, _, exec_rorAcc s⟩
  | arrImm b => exact ⟨_, _, _, exec_arrImm b s⟩
  | jmpInd n => exact exec_jmpInd n s
  | adcAbs n => exact ⟨_, _, _, exec_adcAbs n s⟩
  | rorAbs n => exact ⟨_, _, _, exec_rorAbs n s⟩
  | rraAbs n => exact ⟨_, _, _, exec_rraAbs n s⟩
  | bvsRel d => exact ⟨_, _, (exec_bvsRel d s).trans (branch_eq _ _ _)⟩
  | adcIzy b => exact ⟨_, _, _, exec_adcIzy b s⟩
  | jamImp72 => exact exec_jamImp72 s
  | rraIzy b => exact ⟨_, _, _, exec_rraIzy b s⟩
  | nopZpx74 b => exact ⟨_, _, _, exec_nopZpx74 b s⟩
  | adcZpx b => exact ⟨_, _, _, exec_adcZpx b s⟩
  | rorZpx b => exact ⟨_, _, _, exec_rorZpx b s⟩
  | rraZpx b => exact ⟨_, _, _, exec_rraZpx b s⟩
  | seiImp => exact ⟨_, _, exec_seiImp s⟩
  | adcAby n => exact ⟨_, _, _, exec_adcAby n s⟩
  | nopImp7A => exact ⟨_, _, exec_nopImp7A s⟩
  | rraAby n => exact ⟨_, _, _, exec_rraAby n s⟩
  | nopAbx7C n => exact ⟨_, _, _, exec_nopAbx7C n s⟩
  | adcAbx n => exact ⟨_, _, _, exec_adcAbx n s⟩
  | rorAbx n => exact ⟨_, _, _, exec_rorAbx n s⟩
  | rraAbx n => exact ⟨_, _, _, exec_rraAbx n s⟩
  | nopImm80 b => exact ⟨_, _, _, exec_nopImm80 b s⟩
  | staIzx b => exact ⟨_, _, exec_staIzx b s⟩
  | nopImm82 b => exact ⟨_, _, _, exec_nopImm82 b s⟩
  | saxIzx b => exact ⟨_, _, exec_saxIzx b s⟩
  | styZp b => exact ⟨_, _, exec_styZp b s⟩
  | staZp b => exact ⟨_, _, exec_staZp b s⟩
  | stxZp b => exact ⟨_, _, exec_stxZp b s⟩
  | saxZp b => exact ⟨_, _, exec_saxZp b s⟩
  | deyImp => exact ⟨_, _, exec_deyImp s⟩
  | nopImm89 b => exact ⟨_, _, _, exec_nopImm89 b s⟩
  | txaImp => exact ⟨_, _, exec_txaImp s⟩
  | xaaImm b => exact exec_xaaImm b s
  | styAbs n => exact ⟨_, _, exec_styAbs n s⟩
  | staAbs n => exact ⟨_, _, exec_staAbs n s⟩
  | stxAbs n => exact ⟨_, _, exec_stxAbs n s⟩
  | saxAbs n => exact ⟨_, _, exec_saxAbs n s⟩
  | bccRel d => exact ⟨_, _, (exec_bccRel d s).trans (branch_eq _ _ _)⟩
  | staIzy b => exact ⟨_, _, exec_staIzy b s⟩
  | jamImp92 => exact exec_jamImp92 s
  | shaIzy b => exact exec_shaIzy b s
  | styZpx b => exact ⟨_, _, exec_styZpx b s⟩
  | staZpx b => exact ⟨_, _, exec_staZpx b s⟩
  | stxZpy b => exact ⟨_, _, exec_stxZpy b s⟩
  | saxZpy b => exact ⟨_, _, exec_saxZpy b s⟩
  | tyaImp => exact ⟨_, _, exec_tyaImp s⟩
  | staAby n => exact ⟨_, _, exec_staAby n s⟩
  | txsImp => exact ⟨_, _, exec_txsImp s⟩
  | tasAby n => exact exec_tasAby n s
  | shyAbx n => exact exec_shyAbx n s
  | staAbx n => exact ⟨_, _, exec_staAbx n s⟩
  | shxAby n => exact exec_shxAby n s
  | shaAby n => exact exec_shaAby n s
  | ldyImm b => exact ⟨_, _, _, exec_ldyImm b s⟩
  | ldaIzx b => exact ⟨_, _, _, exec_ldaIzx b s⟩
  | ldxImm b => exact ⟨_, _, _, exec_ldxImm b s⟩
  | laxIzx b => exact ⟨_, _, _, exec_laxIzx b s⟩
  | ldyZp b => exact ⟨_, _, _, exec_ldyZp b s⟩
  | ldaZp b => exact ⟨_, _, _, exec_ldaZp b s⟩
  | ldxZp b => exact ⟨_, _, _, exec_ldxZp b s⟩
  | laxZp b => exact ⟨_, _, _, exec_laxZp b s⟩
  | tayImp => exact ⟨_, _, exec_tayImp s⟩
  | ldaImm b => exact ⟨_, _, _, exec_ldaImm b s⟩
  | taxImp => exact ⟨_, _, exec_taxImp s⟩
  | lxaImm b => exact exec_lxaImm b s
  | ldyAbs n => exact ⟨_, _, _, exec_ldyAbs n s⟩
  | ldaAbs n => exact ⟨_, _, _, exec_ldaAbs n s⟩
  | ldxAbs n => exact ⟨_, _, _, exec_ldxAbs n s⟩
  | laxAbs n => exact ⟨_, _, _, exec_laxAbs n s⟩
  | bcsRel d => exact ⟨_, _, (exec_bcsRel d s).trans (branch_eq _ _ _)⟩
  | ldaIzy b => exact ⟨_, _, _, exec_ldaIzy b s⟩
  | jamImpB2 => exact exec_jamImpB2 s
  | laxIzy b => exact ⟨_, _, _, exec_laxIzy b s⟩
  | ldyZpx b => exact ⟨_, _, _, exec_ldyZpx b s⟩
  | ldaZpx b => exact ⟨_, _, _, exec_ldaZpx b s⟩
  | ldxZpy b => exact ⟨_, _, _, exec_ldxZpy b s⟩
  | laxZpy b => exact ⟨_, _, _, exec_laxZpy b s⟩
  | clvImp => exact ⟨_, _, exec_clvImp s⟩
  | ldaAby n => exact ⟨_, _, _, exec_ldaAby n s⟩
  | tsxImp => exact ⟨_, _, exec_tsxImp s⟩
  | lasAby n => exact ⟨_, _, _, exec_lasAby n s⟩
  | ldyAbx n => exact ⟨_, _, _, exec_ldyAbx n s⟩
  | ldaAbx n => exact ⟨_, _, _, exec_ldaAbx n s⟩
  | ldxAby n => exact ⟨_, _, _, exec_ldxAby n s⟩
  | laxAby n => exact ⟨_, _, _, exec_laxAby n s⟩
  | cpyImm b => exact ⟨_, _, _, exec_cpyImm b s⟩
  | cmpIzx b => exact ⟨_, _, _, exec_cmpIzx b s⟩
  | nopImmC2 b => exact ⟨_, _, _, exec_nopImmC2 b s⟩
  | dcpIzx b => exact ⟨_, _, _, exec_dcpIzx b s⟩
  | cpyZp b => exact ⟨_, _, _, exec_cpyZp b s⟩
  | cmpZp b => exact ⟨_, _, _, exec_cmpZp b s⟩
  | decZp b => exact ⟨_, _, _, exec_decZp b s⟩
  | dcpZp b => exact ⟨_, _, _, exec_dcpZp b s⟩
  | inyImp => exact ⟨_, _, exec_inyImp s⟩
  | cmpImm b => exact ⟨_, _, _, exec_cmpImm b s⟩
  | dexImp => exact ⟨_, _, exec_dexImp s⟩
  | axsImm b => exact ⟨_, _, _, exec_axsImm b s⟩
  | cpyAbs n => exact ⟨_, _, _, exec_cpyAbs n s⟩
  | cmpAbs n => exact ⟨_, _, _, exec_cmpAbs n s⟩
  | decAbs n => exact ⟨_, _, _, exec_decAbs n s⟩
  | dcpAbs n => exact ⟨_, _, _, exec_dcpAbs n s⟩
  | bneRel d => exact ⟨_, _, (exec_bneRel d s).trans (branch_eq _ _ _)⟩
  | cmpIzy b => exact ⟨_, _, _, exec_cmpIzy b s⟩
  | jamImpD2 => exact exec_jamImpD2 s
  | dcpIzy b => exact ⟨_, _, _, exec_dcpIzy b s⟩
  | nopZpxD4 b => exact ⟨_, _, _, exec_nopZpxD4 b s⟩
  | cmpZpx b => exact ⟨_, _, _, exec_cmpZpx b s⟩
  | decZpx b => exact ⟨_, _, _, exec_decZpx b s⟩
  | dcpZpx b => exact ⟨_, _, _, exec_dcpZpx b s⟩
  | cldImp => exact ⟨_, _, exec_cldImp s⟩
  | cmpAby n => exact ⟨_, _, _, exec_cmpAby n s⟩
  | nopImpDA => exact ⟨_, _, exec_nopImpDA s⟩
  | dcpAby n => exact ⟨_, _, _, exec_dcpAby n s⟩
  | nopAbxDC n => exact ⟨_, _, _, exec_nopAbxDC n s⟩
  | cmpAbx n => exact ⟨_, _, _, exec_cmpAbx n s⟩
  | decAbx n => exact ⟨_, _, _, exec_decAbx n s⟩
  | dcpAbx n => exact ⟨_, _, _, exec_dcpAbx n s⟩
  | cpxImm b => exact ⟨_, _, _, exec_cpxImm b s⟩
  | sbcIzx b => exact ⟨_, _, _, exec_sbcIzx b s⟩
  | nopImmE2 b => exact ⟨_, _, _, exec_nopImmE2 b s⟩
  | iscIzx b => exact ⟨_, _, _, exec_iscIzx b s⟩
  | cpxZp b => exact ⟨_, _, _, exec_cpxZp b s⟩
  | sbcZp b => exact ⟨_, _, _, exec_sbcZp b s⟩
  | incZp b => exact ⟨_, _, _, exec_incZp b s⟩
  | iscZp b => exact ⟨_, _, _, exec_iscZp b s⟩
  | inxImp => exact ⟨_, _, exec_inxImp s⟩
  | sbcImm b => exact ⟨_, _, _, exec_sbcImm b s⟩
  | nopImp => exact ⟨_, _, exec_nopImp s⟩
  | sbcImmEB b => exact ⟨_, _, _, exec_sbcImmEB b s⟩
  | cpxAbs n => exact ⟨_, _, _, exec_cpxAbs n s⟩
  | sbcAbs n => exact ⟨_, _, _, exec_sbcAbs n s⟩
  | incAbs n => exact ⟨_, _, _, exec_incAbs n s⟩
  | iscAbs n => exact ⟨_, _, _, exec_iscAbs n s⟩
  | beqRel d => exact ⟨_, _, (exec_beqRel d s).trans (branch_eq _ _ _)⟩
  | sbcIzy b => exact ⟨_, _, _, exec_sbcIzy b s⟩
  | jamImpF2 => exact exec_jamImpF2 s
  | iscIzy b => exact ⟨_, _, _, exec_iscIzy b s⟩
  | nopZpxF4 b => exact ⟨_, _, _, exec_nopZpxF4 b s⟩
  | sbcZpx b => exact ⟨_, _, _, exec_sbcZpx b s⟩
  | incZpx b => exact ⟨_, _, _, exec_incZpx b s⟩
  | iscZpx b => exact ⟨_, _, _, exec_iscZpx b s⟩
  | sedImp => exact ⟨_, _, exec_sedImp s⟩
  | sbcAby n => exact ⟨_, _, _, exec_sbcAby n s⟩
  | nopImpFA => exact ⟨_, _, exec_nopImpFA s⟩
  | iscAby n => exact ⟨_, _, _, exec_iscAby n s⟩
  | nopAbxFC n => exact ⟨_, _, _, exec_nopAbxFC n s⟩
  | sbcAbx n => exact ⟨_, _, _, exec_sbcAbx n s⟩
  | incAbx n => exact ⟨_, _, _, exec_incAbx n s⟩
  | iscAbx n => exact ⟨_, _, _, exec_iscAbx n s⟩

theorem exec_pha (s : State) :
    exec .phaImp s = .next { s with
      cpu := spent 3 { s.cpu with s := s.cpu.s - 1 }
      bus := { s.bus with ram := stackStore s.cpu.s s.cpu.a s.bus.ram } } := by
  simp only [exec, execPhaImp, push_eq, charge, spent]

theorem exec_php (s : State) :
    exec .phpImp s = .next { s with
      cpu := spent 3 { s.cpu with s := s.cpu.s - 1 }
      bus := { s.bus with ram := stackStore s.cpu.s (pack s.cpu.p true) s.bus.ram } } := by
  simp only [exec, execPhpImp, push_eq, charge, spent]

theorem exec_pla (s : State) :
    exec .plaImp s =
      touchesCpu 4 (fun c => loadA (stackByte (c.s + 1) s) { c with s := c.s + 1 }) s := by
  simp only [exec, execPlaImp, pull_eq, touchesCpu, charge, mapCpu, spent]

theorem exec_plp (s : State) :
    exec .plpImp s =
      touchesCpu 4 (fun c => { c with s := c.s + 1, p := unpack (stackByte (c.s + 1) s) c.p }) s := by
  simp only [exec, execPlpImp, pull_eq, touchesCpu, charge, mapCpu, spent]

theorem exec_jsr (n : Word) (s : State) :
    exec (.jsrAbs n) s = .next { s with
      cpu := spent 6 { s.cpu with s := s.cpu.s - 1 - 1, pc := n }
      bus := { s.bus with
        ram := stackStore (s.cpu.s - 1) (loByte (s.cpu.pc - 1))
          (stackStore s.cpu.s (hiByte (s.cpu.pc - 1)) s.bus.ram) } } := by
  simp only [exec, execJsrAbs, pushWord_eq, charge, mapCpu, setPc, spent]

theorem exec_rts (s : State) :
    exec .rtsImp s =
      touchesCpu 6 (fun c => { c with
        s := c.s + 1 + 1, pc := mkWord (stackByte (c.s + 1 + 1) s) (stackByte (c.s + 1) s) + 1 }) s := by
  simp only [exec, execRtsImp, pullWord_eq, touchesCpu, charge, mapCpu, setPc, spent]

theorem exec_rti (s : State) :
    exec .rtiImp s =
      touchesCpu 6 (fun c => { c with
        s := c.s + 1 + 1 + 1
        p := unpack (stackByte (c.s + 1) s) c.p
        pc := mkWord (stackByte (c.s + 1 + 1 + 1) s) (stackByte (c.s + 1 + 1) s) }) s := by
  simp only [exec, execRtiImp, returnFromInterrupt_eq, touchesCpu, charge, spent]

end Sys2Proof.Machine
end

