-- ==== Sys2Proof/Laws/PerInstr.lean ====
section
/-! SUPPORT. Statements about every instruction, one lemma per constructor. Family `RoundTrip`: decoding the encoding
of an instruction gives it back, whatever bytes follow (30_encoding rules R70, R71, R74, R76). -/

namespace Sys2Proof.Laws.RoundTrip

/-- Decoding the encoding of `i` gives `i` and the bytes after it. -/
def Statement (i : Instr) : Prop := ∀ rest : List Byte, decode (encode i ++ rest) = .ok (i, rest)

/-- The operand word comes back from its two bytes. -/
theorem word {mk : Word → Instr} (n : Word) (rest : List Byte) :
    (Except.ok (mk (mkWord (hiByte n) (loByte n)), rest) : Except DecodeError (Instr × List Byte)) =
      .ok (mk n, rest) := by
  rw [Machine.mkWord_bytes]

theorem brkImp : Statement .brkImp := fun _ => rfl
theorem oraIzx (b : Byte) : Statement (.oraIzx b) := fun _ => rfl
theorem jamImp02 : Statement .jamImp02 := fun _ => rfl
theorem sloIzx (b : Byte) : Statement (.sloIzx b) := fun _ => rfl
theorem nopZp04 (b : Byte) : Statement (.nopZp04 b) := fun _ => rfl
theorem oraZp (b : Byte) : Statement (.oraZp b) := fun _ => rfl
theorem aslZp (b : Byte) : Statement (.aslZp b) := fun _ => rfl
theorem sloZp (b : Byte) : Statement (.sloZp b) := fun _ => rfl
theorem phpImp : Statement .phpImp := fun _ => rfl
theorem oraImm (b : Byte) : Statement (.oraImm b) := fun _ => rfl
theorem aslAcc : Statement .aslAcc := fun _ => rfl
theorem ancImm0B (b : Byte) : Statement (.ancImm0B b) := fun _ => rfl
theorem nopAbs (n : Word) : Statement (.nopAbs n) := fun rest => word (mk := .nopAbs) n rest
theorem oraAbs (n : Word) : Statement (.oraAbs n) := fun rest => word (mk := .oraAbs) n rest
theorem aslAbs (n : Word) : Statement (.aslAbs n) := fun rest => word (mk := .aslAbs) n rest
theorem sloAbs (n : Word) : Statement (.sloAbs n) := fun rest => word (mk := .sloAbs) n rest
theorem bplRel (d : Byte) : Statement (.bplRel d) := fun _ => rfl
theorem oraIzy (b : Byte) : Statement (.oraIzy b) := fun _ => rfl
theorem jamImp12 : Statement .jamImp12 := fun _ => rfl
theorem sloIzy (b : Byte) : Statement (.sloIzy b) := fun _ => rfl
theorem nopZpx14 (b : Byte) : Statement (.nopZpx14 b) := fun _ => rfl
theorem oraZpx (b : Byte) : Statement (.oraZpx b) := fun _ => rfl
theorem aslZpx (b : Byte) : Statement (.aslZpx b) := fun _ => rfl
theorem sloZpx (b : Byte) : Statement (.sloZpx b) := fun _ => rfl
theorem clcImp : Statement .clcImp := fun _ => rfl
theorem oraAby (n : Word) : Statement (.oraAby n) := fun rest => word (mk := .oraAby) n rest
theorem nopImp1A : Statement .nopImp1A := fun _ => rfl
theorem sloAby (n : Word) : Statement (.sloAby n) := fun rest => word (mk := .sloAby) n rest
theorem nopAbx1C (n : Word) : Statement (.nopAbx1C n) := fun rest => word (mk := .nopAbx1C) n rest
theorem oraAbx (n : Word) : Statement (.oraAbx n) := fun rest => word (mk := .oraAbx) n rest
theorem aslAbx (n : Word) : Statement (.aslAbx n) := fun rest => word (mk := .aslAbx) n rest
theorem sloAbx (n : Word) : Statement (.sloAbx n) := fun rest => word (mk := .sloAbx) n rest
theorem jsrAbs (n : Word) : Statement (.jsrAbs n) := fun rest => word (mk := .jsrAbs) n rest
theorem andIzx (b : Byte) : Statement (.andIzx b) := fun _ => rfl
theorem jamImp22 : Statement .jamImp22 := fun _ => rfl
theorem rlaIzx (b : Byte) : Statement (.rlaIzx b) := fun _ => rfl
theorem bitZp (b : Byte) : Statement (.bitZp b) := fun _ => rfl
theorem andZp (b : Byte) : Statement (.andZp b) := fun _ => rfl
theorem rolZp (b : Byte) : Statement (.rolZp b) := fun _ => rfl
theorem rlaZp (b : Byte) : Statement (.rlaZp b) := fun _ => rfl
theorem plpImp : Statement .plpImp := fun _ => rfl
theorem andImm (b : Byte) : Statement (.andImm b) := fun _ => rfl
theorem rolAcc : Statement .rolAcc := fun _ => rfl
theorem ancImm2B (b : Byte) : Statement (.ancImm2B b) := fun _ => rfl
theorem bitAbs (n : Word) : Statement (.bitAbs n) := fun rest => word (mk := .bitAbs) n rest
theorem andAbs (n : Word) : Statement (.andAbs n) := fun rest => word (mk := .andAbs) n rest
theorem rolAbs (n : Word) : Statement (.rolAbs n) := fun rest => word (mk := .rolAbs) n rest
theorem rlaAbs (n : Word) : Statement (.rlaAbs n) := fun rest => word (mk := .rlaAbs) n rest
theorem bmiRel (d : Byte) : Statement (.bmiRel d) := fun _ => rfl
theorem andIzy (b : Byte) : Statement (.andIzy b) := fun _ => rfl
theorem jamImp32 : Statement .jamImp32 := fun _ => rfl
theorem rlaIzy (b : Byte) : Statement (.rlaIzy b) := fun _ => rfl
theorem nopZpx34 (b : Byte) : Statement (.nopZpx34 b) := fun _ => rfl
theorem andZpx (b : Byte) : Statement (.andZpx b) := fun _ => rfl
theorem rolZpx (b : Byte) : Statement (.rolZpx b) := fun _ => rfl
theorem rlaZpx (b : Byte) : Statement (.rlaZpx b) := fun _ => rfl
theorem secImp : Statement .secImp := fun _ => rfl
theorem andAby (n : Word) : Statement (.andAby n) := fun rest => word (mk := .andAby) n rest
theorem nopImp3A : Statement .nopImp3A := fun _ => rfl
theorem rlaAby (n : Word) : Statement (.rlaAby n) := fun rest => word (mk := .rlaAby) n rest
theorem nopAbx3C (n : Word) : Statement (.nopAbx3C n) := fun rest => word (mk := .nopAbx3C) n rest
theorem andAbx (n : Word) : Statement (.andAbx n) := fun rest => word (mk := .andAbx) n rest
theorem rolAbx (n : Word) : Statement (.rolAbx n) := fun rest => word (mk := .rolAbx) n rest
theorem rlaAbx (n : Word) : Statement (.rlaAbx n) := fun rest => word (mk := .rlaAbx) n rest
theorem rtiImp : Statement .rtiImp := fun _ => rfl
theorem eorIzx (b : Byte) : Statement (.eorIzx b) := fun _ => rfl
theorem jamImp42 : Statement .jamImp42 := fun _ => rfl
theorem sreIzx (b : Byte) : Statement (.sreIzx b) := fun _ => rfl
theorem nopZp44 (b : Byte) : Statement (.nopZp44 b) := fun _ => rfl
theorem eorZp (b : Byte) : Statement (.eorZp b) := fun _ => rfl
theorem lsrZp (b : Byte) : Statement (.lsrZp b) := fun _ => rfl
theorem sreZp (b : Byte) : Statement (.sreZp b) := fun _ => rfl
theorem phaImp : Statement .phaImp := fun _ => rfl
theorem eorImm (b : Byte) : Statement (.eorImm b) := fun _ => rfl
theorem lsrAcc : Statement .lsrAcc := fun _ => rfl
theorem alrImm (b : Byte) : Statement (.alrImm b) := fun _ => rfl
theorem jmpAbs (n : Word) : Statement (.jmpAbs n) := fun rest => word (mk := .jmpAbs) n rest
theorem eorAbs (n : Word) : Statement (.eorAbs n) := fun rest => word (mk := .eorAbs) n rest
theorem lsrAbs (n : Word) : Statement (.lsrAbs n) := fun rest => word (mk := .lsrAbs) n rest
theorem sreAbs (n : Word) : Statement (.sreAbs n) := fun rest => word (mk := .sreAbs) n rest
theorem bvcRel (d : Byte) : Statement (.bvcRel d) := fun _ => rfl
theorem eorIzy (b : Byte) : Statement (.eorIzy b) := fun _ => rfl
theorem jamImp52 : Statement .jamImp52 := fun _ => rfl
theorem sreIzy (b : Byte) : Statement (.sreIzy b) := fun _ => rfl
theorem nopZpx54 (b : Byte) : Statement (.nopZpx54 b) := fun _ => rfl
theorem eorZpx (b : Byte) : Statement (.eorZpx b) := fun _ => rfl
theorem lsrZpx (b : Byte) : Statement (.lsrZpx b) := fun _ => rfl
theorem sreZpx (b : Byte) : Statement (.sreZpx b) := fun _ => rfl
theorem cliImp : Statement .cliImp := fun _ => rfl
theorem eorAby (n : Word) : Statement (.eorAby n) := fun rest => word (mk := .eorAby) n rest
theorem nopImp5A : Statement .nopImp5A := fun _ => rfl
theorem sreAby (n : Word) : Statement (.sreAby n) := fun rest => word (mk := .sreAby) n rest
theorem nopAbx5C (n : Word) : Statement (.nopAbx5C n) := fun rest => word (mk := .nopAbx5C) n rest
theorem eorAbx (n : Word) : Statement (.eorAbx n) := fun rest => word (mk := .eorAbx) n rest
theorem lsrAbx (n : Word) : Statement (.lsrAbx n) := fun rest => word (mk := .lsrAbx) n rest
theorem sreAbx (n : Word) : Statement (.sreAbx n) := fun rest => word (mk := .sreAbx) n rest
theorem rtsImp : Statement .rtsImp := fun _ => rfl
theorem adcIzx (b : Byte) : Statement (.adcIzx b) := fun _ => rfl
theorem jamImp62 : Statement .jamImp62 := fun _ => rfl
theorem rraIzx (b : Byte) : Statement (.rraIzx b) := fun _ => rfl
theorem nopZp64 (b : Byte) : Statement (.nopZp64 b) := fun _ => rfl
theorem adcZp (b : Byte) : Statement (.adcZp b) := fun _ => rfl
theorem rorZp (b : Byte) : Statement (.rorZp b) := fun _ => rfl
theorem rraZp (b : Byte) : Statement (.rraZp b) := fun _ => rfl
theorem plaImp : Statement .plaImp := fun _ => rfl
theorem adcImm (b : Byte) : Statement (.adcImm b) := fun _ => rfl
theorem rorAcc : Statement .rorAcc := fun _ => rfl
theorem arrImm (b : Byte) : Statement (.arrImm b) := fun _ => rfl
theorem jmpInd (n : Word) : Statement (.jmpInd n) := fun rest => word (mk := .jmpInd) n rest
theorem adcAbs (n : Word) : Statement (.adcAbs n) := fun rest => word (mk := .adcAbs) n rest
theorem rorAbs (n : Word) : Statement (.rorAbs n) := fun rest => word (mk := .rorAbs) n rest
theorem rraAbs (n : Word) : Statement (.rraAbs n) := fun rest => word (mk := .rraAbs) n rest
theorem bvsRel (d : Byte) : Statement (.bvsRel d) := fun _ => rfl
theorem adcIzy (b : Byte) : Statement (.adcIzy b) := fun _ => rfl
theorem jamImp72 : Statement .jamImp72 := fun _ => rfl
theorem rraIzy (b : Byte) : Statement (.rraIzy b) := fun _ => rfl
theorem nopZpx74 (b : Byte) : Statement (.nopZpx74 b) := fun _ => rfl
theorem adcZpx (b : Byte) : Statement (.adcZpx b) := fun _ => rfl
theorem rorZpx (b : Byte) : Statement (.rorZpx b) := fun _ => rfl
theorem rraZpx (b : Byte) : Statement (.rraZpx b) := fun _ => rfl
theorem seiImp : Statement .seiImp := fun _ => rfl
theorem adcAby (n : Word) : Statement (.adcAby n) := fun rest => word (mk := .adcAby) n rest
theorem nopImp7A : Statement .nopImp7A := fun _ => rfl
theorem rraAby (n : Word) : Statement (.rraAby n) := fun rest => word (mk := .rraAby) n rest
theorem nopAbx7C (n : Word) : Statement (.nopAbx7C n) := fun rest => word (mk := .nopAbx7C) n rest
theorem adcAbx (n : Word) : Statement (.adcAbx n) := fun rest => word (mk := .adcAbx) n rest
theorem rorAbx (n : Word) : Statement (.rorAbx n) := fun rest => word (mk := .rorAbx) n rest
theorem rraAbx (n : Word) : Statement (.rraAbx n) := fun rest => word (mk := .rraAbx) n rest
theorem nopImm80 (b : Byte) : Statement (.nopImm80 b) := fun _ => rfl
theorem staIzx (b : Byte) : Statement (.staIzx b) := fun _ => rfl
theorem nopImm82 (b : Byte) : Statement (.nopImm82 b) := fun _ => rfl
theorem saxIzx (b : Byte) : Statement (.saxIzx b) := fun _ => rfl
theorem styZp (b : Byte) : Statement (.styZp b) := fun _ => rfl
theorem staZp (b : Byte) : Statement (.staZp b) := fun _ => rfl
theorem stxZp (b : Byte) : Statement (.stxZp b) := fun _ => rfl
theorem saxZp (b : Byte) : Statement (.saxZp b) := fun _ => rfl
theorem deyImp : Statement .deyImp := fun _ => rfl
theorem nopImm89 (b : Byte) : Statement (.nopImm89 b) := fun _ => rfl
theorem txaImp : Statement .txaImp := fun _ => rfl
theorem xaaImm (b : Byte) : Statement (.xaaImm b) := fun _ => rfl
theorem styAbs (n : Word) : Statement (.styAbs n) := fun rest => word (mk := .styAbs) n rest
theorem staAbs (n : Word) : Statement (.staAbs n) := fun rest => word (mk := .staAbs) n rest
theorem stxAbs (n : Word) : Statement (.stxAbs n) := fun rest => word (mk := .stxAbs) n rest
theorem saxAbs (n : Word) : Statement (.saxAbs n) := fun rest => word (mk := .saxAbs) n rest
theorem bccRel (d : Byte) : Statement (.bccRel d) := fun _ => rfl
theorem staIzy (b : Byte) : Statement (.staIzy b) := fun _ => rfl
theorem jamImp92 : Statement .jamImp92 := fun _ => rfl
theorem shaIzy (b : Byte) : Statement (.shaIzy b) := fun _ => rfl
theorem styZpx (b : Byte) : Statement (.styZpx b) := fun _ => rfl
theorem staZpx (b : Byte) : Statement (.staZpx b) := fun _ => rfl
theorem stxZpy (b : Byte) : Statement (.stxZpy b) := fun _ => rfl
theorem saxZpy (b : Byte) : Statement (.saxZpy b) := fun _ => rfl
theorem tyaImp : Statement .tyaImp := fun _ => rfl
theorem staAby (n : Word) : Statement (.staAby n) := fun rest => word (mk := .staAby) n rest
theorem txsImp : Statement .txsImp := fun _ => rfl
theorem tasAby (n : Word) : Statement (.tasAby n) := fun rest => word (mk := .tasAby) n rest
theorem shyAbx (n : Word) : Statement (.shyAbx n) := fun rest => word (mk := .shyAbx) n rest
theorem staAbx (n : Word) : Statement (.staAbx n) := fun rest => word (mk := .staAbx) n rest
theorem shxAby (n : Word) : Statement (.shxAby n) := fun rest => word (mk := .shxAby) n rest
theorem shaAby (n : Word) : Statement (.shaAby n) := fun rest => word (mk := .shaAby) n rest
theorem ldyImm (b : Byte) : Statement (.ldyImm b) := fun _ => rfl
theorem ldaIzx (b : Byte) : Statement (.ldaIzx b) := fun _ => rfl
theorem ldxImm (b : Byte) : Statement (.ldxImm b) := fun _ => rfl
theorem laxIzx (b : Byte) : Statement (.laxIzx b) := fun _ => rfl
theorem ldyZp (b : Byte) : Statement (.ldyZp b) := fun _ => rfl
theorem ldaZp (b : Byte) : Statement (.ldaZp b) := fun _ => rfl
theorem ldxZp (b : Byte) : Statement (.ldxZp b) := fun _ => rfl
theorem laxZp (b : Byte) : Statement (.laxZp b) := fun _ => rfl
theorem tayImp : Statement .tayImp := fun _ => rfl
theorem ldaImm (b : Byte) : Statement (.ldaImm b) := fun _ => rfl
theorem taxImp : Statement .taxImp := fun _ => rfl
theorem lxaImm (b : Byte) : Statement (.lxaImm b) := fun _ => rfl
theorem ldyAbs (n : Word) : Statement (.ldyAbs n) := fun rest => word (mk := .ldyAbs) n rest
theorem ldaAbs (n : Word) : Statement (.ldaAbs n) := fun rest => word (mk := .ldaAbs) n rest
theorem ldxAbs (n : Word) : Statement (.ldxAbs n) := fun rest => word (mk := .ldxAbs) n rest
theorem laxAbs (n : Word) : Statement (.laxAbs n) := fun rest => word (mk := .laxAbs) n rest
theorem bcsRel (d : Byte) : Statement (.bcsRel d) := fun _ => rfl
theorem ldaIzy (b : Byte) : Statement (.ldaIzy b) := fun _ => rfl
theorem jamImpB2 : Statement .jamImpB2 := fun _ => rfl
theorem laxIzy (b : Byte) : Statement (.laxIzy b) := fun _ => rfl
theorem ldyZpx (b : Byte) : Statement (.ldyZpx b) := fun _ => rfl
theorem ldaZpx (b : Byte) : Statement (.ldaZpx b) := fun _ => rfl
theorem ldxZpy (b : Byte) : Statement (.ldxZpy b) := fun _ => rfl
theorem laxZpy (b : Byte) : Statement (.laxZpy b) := fun _ => rfl
theorem clvImp : Statement .clvImp := fun _ => rfl
theorem ldaAby (n : Word) : Statement (.ldaAby n) := fun rest => word (mk := .ldaAby) n rest
theorem tsxImp : Statement .tsxImp := fun _ => rfl
theorem lasAby (n : Word) : Statement (.lasAby n) := fun rest => word (mk := .lasAby) n rest
theorem ldyAbx (n : Word) : Statement (.ldyAbx n) := fun rest => word (mk := .ldyAbx) n rest
theorem ldaAbx (n : Word) : Statement (.ldaAbx n) := fun rest => word (mk := .ldaAbx) n rest
theorem ldxAby (n : Word) : Statement (.ldxAby n) := fun rest => word (mk := .ldxAby) n rest
theorem laxAby (n : Word) : Statement (.laxAby n) := fun rest => word (mk := .laxAby) n rest
theorem cpyImm (b : Byte) : Statement (.cpyImm b) := fun _ => rfl
theorem cmpIzx (b : Byte) : Statement (.cmpIzx b) := fun _ => rfl
theorem nopImmC2 (b : Byte) : Statement (.nopImmC2 b) := fun _ => rfl
theorem dcpIzx (b : Byte) : Statement (.dcpIzx b) := fun _ => rfl
theorem cpyZp (b : Byte) : Statement (.cpyZp b) := fun _ => rfl
theorem cmpZp (b : Byte) : Statement (.cmpZp b) := fun _ => rfl
theorem decZp (b : Byte) : Statement (.decZp b) := fun _ => rfl
theorem dcpZp (b : Byte) : Statement (.dcpZp b) := fun _ => rfl
theorem inyImp : Statement .inyImp := fun _ => rfl
theorem cmpImm (b : Byte) : Statement (.cmpImm b) := fun _ => rfl
theorem dexImp : Statement .dexImp := fun _ => rfl
theorem axsImm (b : Byte) : Statement (.axsImm b) := fun _ => rfl
theorem cpyAbs (n : Word) : Statement (.cpyAbs n) := fun rest => word (mk := .cpyAbs) n rest
theorem cmpAbs (n : Word) : Statement (.cmpAbs n) := fun rest => word (mk := .cmpAbs) n rest
theorem decAbs (n : Word) : Statement (.decAbs n) := fun rest => word (mk := .decAbs) n rest
theorem dcpAbs (n : Word) : Statement (.dcpAbs n) := fun rest => word (mk := .dcpAbs) n rest
theorem bneRel (d : Byte) : Statement (.bneRel d) := fun _ => rfl
theorem cmpIzy (b : Byte) : Statement (.cmpIzy b) := fun _ => rfl
theorem jamImpD2 : Statement .jamImpD2 := fun _ => rfl
theorem dcpIzy (b : Byte) : Statement (.dcpIzy b) := fun _ => rfl
theorem nopZpxD4 (b : Byte) : Statement (.nopZpxD4 b) := fun _ => rfl
theorem cmpZpx (b : Byte) : Statement (.cmpZpx b) := fun _ => rfl
theorem decZpx (b : Byte) : Statement (.decZpx b) := fun _ => rfl
theorem dcpZpx (b : Byte) : Statement (.dcpZpx b) := fun _ => rfl
theorem cldImp : Statement .cldImp := fun _ => rfl
theorem cmpAby (n : Word) : Statement (.cmpAby n) := fun rest => word (mk := .cmpAby) n rest
theorem nopImpDA : Statement .nopImpDA := fun _ => rfl
theorem dcpAby (n : Word) : Statement (.dcpAby n) := fun rest => word (mk := .dcpAby) n rest
theorem nopAbxDC (n : Word) : Statement (.nopAbxDC n) := fun rest => word (mk := .nopAbxDC) n rest
theorem cmpAbx (n : Word) : Statement (.cmpAbx n) := fun rest => word (mk := .cmpAbx) n rest
theorem decAbx (n : Word) : Statement (.decAbx n) := fun rest => word (mk := .decAbx) n rest
theorem dcpAbx (n : Word) : Statement (.dcpAbx n) := fun rest => word (mk := .dcpAbx) n rest
theorem cpxImm (b : Byte) : Statement (.cpxImm b) := fun _ => rfl
theorem sbcIzx (b : Byte) : Statement (.sbcIzx b) := fun _ => rfl
theorem nopImmE2 (b : Byte) : Statement (.nopImmE2 b) := fun _ => rfl
theorem iscIzx (b : Byte) : Statement (.iscIzx b) := fun _ => rfl
theorem cpxZp (b : Byte) : Statement (.cpxZp b) := fun _ => rfl
theorem sbcZp (b : Byte) : Statement (.sbcZp b) := fun _ => rfl
theorem incZp (b : Byte) : Statement (.incZp b) := fun _ => rfl
theorem iscZp (b : Byte) : Statement (.iscZp b) := fun _ => rfl
theorem inxImp : Statement .inxImp := fun _ => rfl
theorem sbcImm (b : Byte) : Statement (.sbcImm b) := fun _ => rfl
theorem nopImp : Statement .nopImp := fun _ => rfl
theorem sbcImmEB (b : Byte) : Statement (.sbcImmEB b) := fun _ => rfl
theorem cpxAbs (n : Word) : Statement (.cpxAbs n) := fun rest => word (mk := .cpxAbs) n rest
theorem sbcAbs (n : Word) : Statement (.sbcAbs n) := fun rest => word (mk := .sbcAbs) n rest
theorem incAbs (n : Word) : Statement (.incAbs n) := fun rest => word (mk := .incAbs) n rest
theorem iscAbs (n : Word) : Statement (.iscAbs n) := fun rest => word (mk := .iscAbs) n rest
theorem beqRel (d : Byte) : Statement (.beqRel d) := fun _ => rfl
theorem sbcIzy (b : Byte) : Statement (.sbcIzy b) := fun _ => rfl
theorem jamImpF2 : Statement .jamImpF2 := fun _ => rfl
theorem iscIzy (b : Byte) : Statement (.iscIzy b) := fun _ => rfl
theorem nopZpxF4 (b : Byte) : Statement (.nopZpxF4 b) := fun _ => rfl
theorem sbcZpx (b : Byte) : Statement (.sbcZpx b) := fun _ => rfl
theorem incZpx (b : Byte) : Statement (.incZpx b) := fun _ => rfl
theorem iscZpx (b : Byte) : Statement (.iscZpx b) := fun _ => rfl
theorem sedImp : Statement .sedImp := fun _ => rfl
theorem sbcAby (n : Word) : Statement (.sbcAby n) := fun rest => word (mk := .sbcAby) n rest
theorem nopImpFA : Statement .nopImpFA := fun _ => rfl
theorem iscAby (n : Word) : Statement (.iscAby n) := fun rest => word (mk := .iscAby) n rest
theorem nopAbxFC (n : Word) : Statement (.nopAbxFC n) := fun rest => word (mk := .nopAbxFC) n rest
theorem sbcAbx (n : Word) : Statement (.sbcAbx n) := fun rest => word (mk := .sbcAbx) n rest
theorem incAbx (n : Word) : Statement (.incAbx n) := fun rest => word (mk := .incAbx) n rest
theorem iscAbx (n : Word) : Statement (.iscAbx n) := fun rest => word (mk := .iscAbx) n rest

end Sys2Proof.Laws.RoundTrip
end

