-- ==== Sys2Proof/Laws/Touched.lean ====
section
/-! SUPPORT. All that running an instruction can do to the machine: bus accesses and changes of the CPU. A property of
everything but the CPU that every bus access keeps is kept by every instruction, by induction on `Touched`. -/

namespace Sys2Proof.Machine

/-- `t` comes from `s` by bus accesses and changes of the CPU. -/
inductive Touched : State → State → Prop where
  | refl (s : State) : Touched s s
  | cpu (s t : State) (c : Cpu) : Touched s t → Touched s { t with cpu := c }
  | read (s t : State) (a : Word) : Touched s t → Touched s (busRead a t).st
  | write (s t : State) (a : Word) (v : Byte) : Touched s t → Touched s (busWrite a v t)

theorem Touched.push {s t : State} (h : Touched s t) (v : Byte) : Touched s (push v t) :=
  .cpu _ _ _ (.write _ _ _ _ h)

theorem Touched.pull {s t : State} (h : Touched s t) : Touched s (pull t).st :=
  .read _ _ _ (.cpu _ _ _ h)

theorem Touched.entry {s t : State} (h : Touched s t) (vec : Word) (b : Bool) : Touched s (interruptEntry vec b t) :=
  .cpu _ _ _ (.read _ _ _ (.read _ _ _ (.cpu _ _ _ ((h.push _).push _ |>.push _))))

/-- Every instruction. -/
theorem exec_touched (i : Instr) (s t : State) (h : exec i s = .next t) : Touched s t := by
  have hc := exec_byClass i s
  have r0 := Touched.refl s
  unfold AnswersByClass at hc
  cases ha : i.access with
  | idle => simp only [ha] at hc; obtain ⟨n, f, e⟩ := hc; rw [e] at h; cases h; exact .cpu _ _ _ r0
  | read src =>
    simp only [ha] at hc; obtain ⟨n, p, f, e⟩ := hc; rw [e] at h; cases h
    cases src <;> [exact .cpu _ _ _ r0; exact .cpu _ _ _ (.read _ _ _ r0)]
  | write m => simp only [ha] at hc; obtain ⟨n, v, e⟩ := hc; rw [e] at h; cases h; exact .cpu _ _ _ (.write _ _ _ _ r0)
  | modify m =>
    simp only [ha] at hc; obtain ⟨n, f, g, e⟩ := hc; rw [e] at h; cases h
    exact .cpu _ _ _ (.write _ _ _ _ (.read _ _ _ r0))
  | pointer n =>
    simp only [ha] at hc; rw [hc] at h; cases h
    exact .cpu _ _ _ (.cpu _ _ _ (.read _ _ _ (.read _ _ _ r0)))
  | halt => simp only [ha] at hc; rw [hc] at h; cases h; exact .cpu _ _ _ r0
  | push n =>
    cases i <;> first
      | (simp only [Instr.access] at ha; cases ha; done)
      | (cases h; exact .cpu _ _ _ ((Touched.refl s).push _))
      | (cases h; exact .cpu _ _ _ (.cpu _ _ _ (((Touched.refl s).push _).push _)))
  | pull n =>
    cases i <;> first
      | (simp only [Instr.access] at ha; cases ha; done)
      | (cases h; exact .cpu _ _ _ (.cpu _ _ _ (Touched.refl s).pull))
      | (cases h; exact .cpu _ _ _ (.cpu _ _ _ (Touched.refl s).pull.pull))
      | (cases h; exact .cpu _ _ _ (.cpu _ _ _ (Touched.pull (.pull (.cpu _ _ _ (Touched.refl s).pull)))))
  | brk =>
    simp only [ha] at hc; rw [hc] at h
    unfold brk at h
    split at h
    · cases h; exact .cpu _ _ _ r0
    · cases h; exact .cpu _ _ _ (.entry (.cpu _ _ _ r0) _ _)

/-! ## The fetch, the CPU's step and the machine's step -/

theorem Touched.trans {s t u : State} (h : Touched s t) (h' : Touched t u) : Touched s u := by
  induction h' with
  | refl => exact h
  | cpu t c _ ih => exact .cpu _ _ _ ih
  | read t a _ ih => exact .read _ _ _ ih
  | write t a v _ ih => exact .write _ _ _ _ ih

theorem fetch_touched (s : State) : Touched s (fetch s).st := by
  have r := Touched.refl s
  unfold fetch; simp only; split
  · exact .cpu _ _ _ (.read _ _ _ r)
  · unfold fetchOperand; split
    · exact .cpu _ _ _ (.read _ _ _ r)
    · exact .cpu _ _ _ (.read _ _ _ (.cpu _ _ _ (.read _ _ _ r)))
    · exact .cpu _ _ _ (.read _ _ _ (.cpu _ _ _ (.read _ _ _ (.cpu _ _ _ (.read _ _ _ r)))))

theorem cpuStep_touched {n i : Bool} {s t : State} (h : cpuStep n i s = .next t) : Touched s t := by
  unfold cpuStep at h; repeat' split at h
  · cases h; exact .refl _
  · cases h; exact .cpu _ _ _ (.entry (.cpu _ _ _ (.refl _)) _ _)
  · cases h; exact .cpu _ _ _ (.entry (.refl _) _ _)
  · exact (fetch_touched s).trans (exec_touched _ _ _ h)

/-- A step that answers: nothing for a halted machine, else the CPU's part and then the dots. -/
theorem step_parts {s t : State} (h : step s = .next t) :
    (s.cpu.halted = true ∧ t = s) ∨
    ∃ u, cpuStep s.ppu.nmiRequest s.irqLine (clearNmiRequest s) = .next u ∧ t = afterCpu s.cpu.cycles u := by
  simp only [step, syncStep] at h
  split at h
  · cases h; exact .inl ⟨‹_›, rfl⟩
  · split at h
    · cases h; exact .inr ⟨_, ‹_›, rfl⟩
    · cases h
    · cases h

end Sys2Proof.Machine
end

