-- ==== Sys2Proof/Tests/Slice0.lean ====
section
/-! SUPPORT. Tests: the decoding of every constructor from bytes written out of the spec's matrix, one or two steps for
each instruction that the spec's own examples and vectors cover, and a witness for the hypotheses of each statement. -/

namespace Sys2Proof.Tests

open Sys2Proof Sys2Proof.Machine

set_option Elab.async false

/-- Whether the bytes decode to `i` with nothing left over. -/
def decodes (bytes : List Byte) (i : Instr) : Bool :=
  match decode bytes with
  | .ok (j, rest) => j == i && rest.isEmpty
  | .error _ => false

/-- Bytes stored behind the addresses of a list. -/
def pokeAll : List (Word × Byte) → State → State
  | [], s => s
  | p :: rest, s => pokeAll rest (placeByte p.1 p.2 s)

/-- Bytes stored from `a` up. -/
def pokes (a : Word) : List Byte → State → State
  | [], s => s
  | v :: rest, s => pokes (a + 1) rest (placeByte a v s)

/-- The start the spec's examples use: PC=0x0600, I=1, other flags 0, registers 0, S=0xFD. -/
def start : State := { State.reset with cpu := Cpu.reset 0x0600 }

/-- Whether an outcome is a next state with a property. -/
def leaves (o : Out) (f : State → Bool) : Bool :=
  match o with
  | .next t => f t
  | .fault _ => false
  | .refused _ => false

/-- One step of the machine with `bytes` at `PC`, the memory of `mem` and the registers of `before`: whether the CPU is
then the one of `after`, all its registers compared, and the bytes of `out` are in memory. -/
def runs (bytes : List Byte) (mem : List (Word × Byte)) (before after : Cpu → Cpu) (out : List (Word × Byte)) : Bool :=
  let c := before start.cpu
  leaves (step (pokeAll mem (pokes c.pc bytes { start with cpu := c }))) fun t =>
    t.cpu == after c && out.all fun p => peek p.1 t == some p.2

/-! ## Decoding: the 256 cells of the matrix of 30_encoding rule R76

Each operand byte is 0x9C, each operand word is 0x9C37, the low byte first. -/

theorem test_decode_row0x : (
    decodes [0x00] .brkImp && decodes [0x01, 0x9C] (.oraIzx 0x9C) && decodes [0x02] .jamImp02 &&
    decodes [0x03, 0x9C] (.sloIzx 0x9C) && decodes [0x04, 0x9C] (.nopZp04 0x9C) &&
    decodes [0x05, 0x9C] (.oraZp 0x9C) && decodes [0x06, 0x9C] (.aslZp 0x9C) &&
    decodes [0x07, 0x9C] (.sloZp 0x9C) && decodes [0x08] .phpImp && decodes [0x09, 0x9C] (.oraImm 0x9C) &&
    decodes [0x0A] .aslAcc && decodes [0x0B, 0x9C] (.ancImm0B 0x9C) &&
    decodes [0x0C, 0x37, 0x9C] (.nopAbs 0x9C37) && decodes [0x0D, 0x37, 0x9C] (.oraAbs 0x9C37) &&
    decodes [0x0E, 0x37, 0x9C] (.aslAbs 0x9C37) && decodes [0x0F, 0x37, 0x9C] (.sloAbs 0x9C37)) = true := by decide +kernel

theorem test_decode_row1x : (
    decodes [0x10, 0x9C] (.bplRel 0x9C) && decodes [0x11, 0x9C] (.oraIzy 0x9C) && decodes [0x12] .jamImp12 &&
    decodes [0x13, 0x9C] (.sloIzy 0x9C) && decodes [0x14, 0x9C] (.nopZpx14 0x9C) &&
    decodes [0x15, 0x9C] (.oraZpx 0x9C) && decodes [0x16, 0x9C] (.aslZpx 0x9C) &&
    decodes [0x17, 0x9C] (.sloZpx 0x9C) && decodes [0x18] .clcImp && decodes [0x19, 0x37, 0x9C] (.oraAby 0x9C37) &&
    decodes [0x1A] .nopImp1A && decodes [0x1B, 0x37, 0x9C] (.sloAby 0x9C37) &&
    decodes [0x1C, 0x37, 0x9C] (.nopAbx1C 0x9C37) && decodes [0x1D, 0x37, 0x9C] (.oraAbx 0x9C37) &&
    decodes [0x1E, 0x37, 0x9C] (.aslAbx 0x9C37) && decodes [0x1F, 0x37, 0x9C] (.sloAbx 0x9C37)) = true := by decide +kernel

theorem test_decode_row2x : (
    decodes [0x20, 0x37, 0x9C] (.jsrAbs 0x9C37) && decodes [0x21, 0x9C] (.andIzx 0x9C) &&
    decodes [0x22] .jamImp22 && decodes [0x23, 0x9C] (.rlaIzx 0x9C) && decodes [0x24, 0x9C] (.bitZp 0x9C) &&
    decodes [0x25, 0x9C] (.andZp 0x9C) && decodes [0x26, 0x9C] (.rolZp 0x9C) &&
    decodes [0x27, 0x9C] (.rlaZp 0x9C) && decodes [0x28] .plpImp && decodes [0x29, 0x9C] (.andImm 0x9C) &&
    decodes [0x2A] .rolAcc && decodes [0x2B, 0x9C] (.ancImm2B 0x9C) &&
    decodes [0x2C, 0x37, 0x9C] (.bitAbs 0x9C37) && decodes [0x2D, 0x37, 0x9C] (.andAbs 0x9C37) &&
    decodes [0x2E, 0x37, 0x9C] (.rolAbs 0x9C37) && decodes [0x2F, 0x37, 0x9C] (.rlaAbs 0x9C37)) = true := by decide +kernel

theorem test_decode_row3x : (
    decodes [0x30, 0x9C] (.bmiRel 0x9C) && decodes [0x31, 0x9C] (.andIzy 0x9C) && decodes [0x32] .jamImp32 &&
    decodes [0x33, 0x9C] (.rlaIzy 0x9C) && decodes [0x34, 0x9C] (.nopZpx34 0x9C) &&
    decodes [0x35, 0x9C] (.andZpx 0x9C) && decodes [0x36, 0x9C] (.rolZpx 0x9C) &&
    decodes [0x37, 0x9C] (.rlaZpx 0x9C) && decodes [0x38] .secImp && decodes [0x39, 0x37, 0x9C] (.andAby 0x9C37) &&
    decodes [0x3A] .nopImp3A && decodes [0x3B, 0x37, 0x9C] (.rlaAby 0x9C37) &&
    decodes [0x3C, 0x37, 0x9C] (.nopAbx3C 0x9C37) && decodes [0x3D, 0x37, 0x9C] (.andAbx 0x9C37) &&
    decodes [0x3E, 0x37, 0x9C] (.rolAbx 0x9C37) && decodes [0x3F, 0x37, 0x9C] (.rlaAbx 0x9C37)) = true := by decide +kernel

theorem test_decode_row4x : (
    decodes [0x40] .rtiImp && decodes [0x41, 0x9C] (.eorIzx 0x9C) && decodes [0x42] .jamImp42 &&
    decodes [0x43, 0x9C] (.sreIzx 0x9C) && decodes [0x44, 0x9C] (.nopZp44 0x9C) &&
    decodes [0x45, 0x9C] (.eorZp 0x9C) && decodes [0x46, 0x9C] (.lsrZp 0x9C) &&
    decodes [0x47, 0x9C] (.sreZp 0x9C) && decodes [0x48] .phaImp && decodes [0x49, 0x9C] (.eorImm 0x9C) &&
    decodes [0x4A] .lsrAcc && decodes [0x4B, 0x9C] (.alrImm 0x9C) && decodes [0x4C, 0x37, 0x9C] (.jmpAbs 0x9C37) &&
    decodes [0x4D, 0x37, 0x9C] (.eorAbs 0x9C37) && decodes [0x4E, 0x37, 0x9C] (.lsrAbs 0x9C37) &&
    decodes [0x4F, 0x37, 0x9C] (.sreAbs 0x9C37)) = true := by decide +kernel

theorem test_decode_row5x : (
    decodes [0x50, 0x9C] (.bvcRel 0x9C) && decodes [0x51, 0x9C] (.eorIzy 0x9C) && decodes [0x52] .jamImp52 &&
    decodes [0x53, 0x9C] (.sreIzy 0x9C) && decodes [0x54, 0x9C] (.nopZpx54 0x9C) &&
    decodes [0x55, 0x9C] (.eorZpx 0x9C) && decodes [0x56, 0x9C] (.lsrZpx 0x9C) &&
    decodes [0x57, 0x9C] (.sreZpx 0x9C) && decodes [0x58] .cliImp && decodes [0x59, 0x37, 0x9C] (.eorAby 0x9C37) &&
    decodes [0x5A] .nopImp5A && decodes [0x5B, 0x37, 0x9C] (.sreAby 0x9C37) &&
    decodes [0x5C, 0x37, 0x9C] (.nopAbx5C 0x9C37) && decodes [0x5D, 0x37, 0x9C] (.eorAbx 0x9C37) &&
    decodes [0x5E, 0x37, 0x9C] (.lsrAbx 0x9C37) && decodes [0x5F, 0x37, 0x9C] (.sreAbx 0x9C37)) = true := by decide +kernel

theorem test_decode_row6x : (
    decodes [0x60] .rtsImp && decodes [0x61, 0x9C] (.adcIzx 0x9C) && decodes [0x62] .jamImp62 &&
    decodes [0x63, 0x9C] (.rraIzx 0x9C) && decodes [0x64, 0x9C] (.nopZp64 0x9C) &&
    decodes [0x65, 0x9C] (.adcZp 0x9C) && decodes [0x66, 0x9C] (.rorZp 0x9C) &&
    decodes [0x67, 0x9C] (.rraZp 0x9C) && decodes [0x68] .plaImp && decodes [0x69, 0x9C] (.adcImm 0x9C) &&
    decodes [0x6A] .rorAcc && decodes [0x6B, 0x9C] (.arrImm 0x9C) && decodes [0x6C, 0x37, 0x9C] (.jmpInd 0x9C37) &&
    decodes [0x6D, 0x37, 0x9C] (.adcAbs 0x9C37) && decodes [0x6E, 0x37, 0x9C] (.rorAbs 0x9C37) &&
    decodes [0x6F, 0x37, 0x9C] (.rraAbs 0x9C37)) = true := by decide +kernel

theorem test_decode_row7x : (
    decodes [0x70, 0x9C] (.bvsRel 0x9C) && decodes [0x71, 0x9C] (.adcIzy 0x9C) && decodes [0x72] .jamImp72 &&
    decodes [0x73, 0x9C] (.rraIzy 0x9C) && decodes [0x74, 0x9C] (.nopZpx74 0x9C) &&
    decodes [0x75, 0x9C] (.adcZpx 0x9C) && decodes [0x76, 0x9C] (.rorZpx 0x9C) &&
    decodes [0x77, 0x9C] (.rraZpx 0x9C) && decodes [0x78] .seiImp && decodes [0x79, 0x37, 0x9C] (.adcAby 0x9C37) &&
    decodes [0x7A] .nopImp7A && decodes [0x7B, 0x37, 0x9C] (.rraAby 0x9C37) &&
    decodes [0x7C, 0x37, 0x9C] (.nopAbx7C 0x9C37) && decodes [0x7D, 0x37, 0x9C] (.adcAbx 0x9C37) &&
    decodes [0x7E, 0x37, 0x9C] (.rorAbx 0x9C37) && decodes [0x7F, 0x37, 0x9C] (.rraAbx 0x9C37)) = true := by decide +kernel

theorem test_decode_row8x : (
    decodes [0x80, 0x9C] (.nopImm80 0x9C) && decodes [0x81, 0x9C] (.staIzx 0x9C) &&
    decodes [0x82, 0x9C] (.nopImm82 0x9C) && decodes [0x83, 0x9C] (.saxIzx 0x9C) &&
    decodes [0x84, 0x9C] (.styZp 0x9C) && decodes [0x85, 0x9C] (.staZp 0x9C) &&
    decodes [0x86, 0x9C] (.stxZp 0x9C) && decodes [0x87, 0x9C] (.saxZp 0x9C) && decodes [0x88] .deyImp &&
    decodes [0x89, 0x9C] (.nopImm89 0x9C) && decodes [0x8A] .txaImp && decodes [0x8B, 0x9C] (.xaaImm 0x9C) &&
    decodes [0x8C, 0x37, 0x9C] (.styAbs 0x9C37) && decodes [0x8D, 0x37, 0x9C] (.staAbs 0x9C37) &&
    decodes [0x8E, 0x37, 0x9C] (.stxAbs 0x9C37) && decodes [0x8F, 0x37, 0x9C] (.saxAbs 0x9C37)) = true := by decide +kernel

theorem test_decode_row9x : (
    decodes [0x90, 0x9C] (.bccRel 0x9C) && decodes [0x91, 0x9C] (.staIzy 0x9C) && decodes [0x92] .jamImp92 &&
    decodes [0x93, 0x9C] (.shaIzy 0x9C) && decodes [0x94, 0x9C] (.styZpx 0x9C) &&
    decodes [0x95, 0x9C] (.staZpx 0x9C) && decodes [0x96, 0x9C] (.stxZpy 0x9C) &&
    decodes [0x97, 0x9C] (.saxZpy 0x9C) && decodes [0x98] .tyaImp && decodes [0x99, 0x37, 0x9C] (.staAby 0x9C37) &&
    decodes [0x9A] .txsImp && decodes [0x9B, 0x37, 0x9C] (.tasAby 0x9C37) &&
    decodes [0x9C, 0x37, 0x9C] (.shyAbx 0x9C37) && decodes [0x9D, 0x37, 0x9C] (.staAbx 0x9C37) &&
    decodes [0x9E, 0x37, 0x9C] (.shxAby 0x9C37) && decodes [0x9F, 0x37, 0x9C] (.shaAby 0x9C37)) = true := by decide +kernel

theorem test_decode_rowAx : (
    decodes [0xA0, 0x9C] (.ldyImm 0x9C) && decodes [0xA1, 0x9C] (.ldaIzx 0x9C) &&
    decodes [0xA2, 0x9C] (.ldxImm 0x9C) && decodes [0xA3, 0x9C] (.laxIzx 0x9C) &&
    decodes [0xA4, 0x9C] (.ldyZp 0x9C) && decodes [0xA5, 0x9C] (.ldaZp 0x9C) &&
    decodes [0xA6, 0x9C] (.ldxZp 0x9C) && decodes [0xA7, 0x9C] (.laxZp 0x9C) && decodes [0xA8] .tayImp &&
    decodes [0xA9, 0x9C] (.ldaImm 0x9C) && decodes [0xAA] .taxImp && decodes [0xAB, 0x9C] (.lxaImm 0x9C) &&
    decodes [0xAC, 0x37, 0x9C] (.ldyAbs 0x9C37) && decodes [0xAD, 0x37, 0x9C] (.ldaAbs 0x9C37) &&
    decodes [0xAE, 0x37, 0x9C] (.ldxAbs 0x9C37) && decodes [0xAF, 0x37, 0x9C] (.laxAbs 0x9C37)) = true := by decide +kernel

theorem test_decode_rowBx : (
    decodes [0xB0, 0x9C] (.bcsRel 0x9C) && decodes [0xB1, 0x9C] (.ldaIzy 0x9C) && decodes [0xB2] .jamImpB2 &&
    decodes [0xB3, 0x9C] (.laxIzy 0x9C) && decodes [0xB4, 0x9C] (.ldyZpx 0x9C) &&
    decodes [0xB5, 0x9C] (.ldaZpx 0x9C) && decodes [0xB6, 0x9C] (.ldxZpy 0x9C) &&
    decodes [0xB7, 0x9C] (.laxZpy 0x9C) && decodes [0xB8] .clvImp && decodes [0xB9, 0x37, 0x9C] (.ldaAby 0x9C37) &&
    decodes [0xBA] .tsxImp && decodes [0xBB, 0x37, 0x9C] (.lasAby 0x9C37) &&
    decodes [0xBC, 0x37, 0x9C] (.ldyAbx 0x9C37) && decodes [0xBD, 0x37, 0x9C] (.ldaAbx 0x9C37) &&
    decodes [0xBE, 0x37, 0x9C] (.ldxAby 0x9C37) && decodes [0xBF, 0x37, 0x9C] (.laxAby 0x9C37)) = true := by decide +kernel

theorem test_decode_rowCx : (
    decodes [0xC0, 0x9C] (.cpyImm 0x9C) && decodes [0xC1, 0x9C] (.cmpIzx 0x9C) &&
    decodes [0xC2, 0x9C] (.nopImmC2 0x9C) && decodes [0xC3, 0x9C] (.dcpIzx 0x9C) &&
    decodes [0xC4, 0x9C] (.cpyZp 0x9C) && decodes [0xC5, 0x9C] (.cmpZp 0x9C) &&
    decodes [0xC6, 0x9C] (.decZp 0x9C) && decodes [0xC7, 0x9C] (.dcpZp 0x9C) && decodes [0xC8] .inyImp &&
    decodes [0xC9, 0x9C] (.cmpImm 0x9C) && decodes [0xCA] .dexImp && decodes [0xCB, 0x9C] (.axsImm 0x9C) &&
    decodes [0xCC, 0x37, 0x9C] (.cpyAbs 0x9C37) && decodes [0xCD, 0x37, 0x9C] (.cmpAbs 0x9C37) &&
    decodes [0xCE, 0x37, 0x9C] (.decAbs 0x9C37) && decodes [0xCF, 0x37, 0x9C] (.dcpAbs 0x9C37)) = true := by decide +kernel

theorem test_decode_rowDx : (
    decodes [0xD0, 0x9C] (.bneRel 0x9C) && decodes [0xD1, 0x9C] (.cmpIzy 0x9C) && decodes [0xD2] .jamImpD2 &&
    decodes [0xD3, 0x9C] (.dcpIzy 0x9C) && decodes [0xD4, 0x9C] (.nopZpxD4 0x9C) &&
    decodes [0xD5, 0x9C] (.cmpZpx 0x9C) && decodes [0xD6, 0x9C] (.decZpx 0x9C) &&
    decodes [0xD7, 0x9C] (.dcpZpx 0x9C) && decodes [0xD8] .cldImp && decodes [0xD9, 0x37, 0x9C] (.cmpAby 0x9C37) &&
    decodes [0xDA] .nopImpDA && decodes [0xDB, 0x37, 0x9C] (.dcpAby 0x9C37) &&
    decodes [0xDC, 0x37, 0x9C] (.nopAbxDC 0x9C37) && decodes [0xDD, 0x37, 0x9C] (.cmpAbx 0x9C37) &&
    decodes [0xDE, 0x37, 0x9C] (.decAbx 0x9C37) && decodes [0xDF, 0x37, 0x9C] (.dcpAbx 0x9C37)) = true := by decide +kernel

theorem test_decode_rowEx : (
    decodes [0xE0, 0x9C] (.cpxImm 0x9C) && decodes [0xE1, 0x9C] (.sbcIzx 0x9C) &&
    decodes [0xE2, 0x9C] (.nopImmE2 0x9C) && decodes [0xE3, 0x9C] (.iscIzx 0x9C) &&
    decodes [0xE4, 0x9C] (.cpxZp 0x9C) && decodes [0xE5, 0x9C] (.sbcZp 0x9C) &&
    decodes [0xE6, 0x9C] (.incZp 0x9C) && decodes [0xE7, 0x9C] (.iscZp 0x9C) && decodes [0xE8] .inxImp &&
    decodes [0xE9, 0x9C] (.sbcImm 0x9C) && decodes [0xEA] .nopImp && decodes [0xEB, 0x9C] (.sbcImmEB 0x9C) &&
    decodes [0xEC, 0x37, 0x9C] (.cpxAbs 0x9C37) && decodes [0xED, 0x37, 0x9C] (.sbcAbs 0x9C37) &&
    decodes [0xEE, 0x37, 0x9C] (.incAbs 0x9C37) && decodes [0xEF, 0x37, 0x9C] (.iscAbs 0x9C37)) = true := by decide +kernel

theorem test_decode_rowFx : (
    decodes [0xF0, 0x9C] (.beqRel 0x9C) && decodes [0xF1, 0x9C] (.sbcIzy 0x9C) && decodes [0xF2] .jamImpF2 &&
    decodes [0xF3, 0x9C] (.iscIzy 0x9C) && decodes [0xF4, 0x9C] (.nopZpxF4 0x9C) &&
    decodes [0xF5, 0x9C] (.sbcZpx 0x9C) && decodes [0xF6, 0x9C] (.incZpx 0x9C) &&
    decodes [0xF7, 0x9C] (.iscZpx 0x9C) && decodes [0xF8] .sedImp && decodes [0xF9, 0x37, 0x9C] (.sbcAby 0x9C37) &&
    decodes [0xFA] .nopImpFA && decodes [0xFB, 0x37, 0x9C] (.iscAby 0x9C37) &&
    decodes [0xFC, 0x37, 0x9C] (.nopAbxFC 0x9C37) && decodes [0xFD, 0x37, 0x9C] (.sbcAbx 0x9C37) &&
    decodes [0xFE, 0x37, 0x9C] (.incAbx 0x9C37) && decodes [0xFF, 0x37, 0x9C] (.iscAbx 0x9C37)) = true := by decide +kernel

/-! ## One step of each instruction, from the spec's examples and vectors -/

/-- 41_load_store_transfer.md rule R120, its example. -/
theorem test_lda_r120 : runs [0xBD, 0xF0, 0x02] [(0x0310, 0x80)]
    (fun c => { c with x := 0x20 })
    (fun c => { c with a := 0x80, pc := 0x0603, p := { c.p with n := true }, cycles := 5 }) [] = true := by decide +kernel

/-- 41_load_store_transfer.md rule R121, its example. -/
theorem test_ldx_r121 : runs [0xAE, 0x00, 0x02] [(0x0200, 0x01)]
    (fun c => c)
    (fun c => { c with x := 0x01, pc := 0x0603, cycles := 4 }) [] = true := by decide +kernel

/-- 41_load_store_transfer.md rule R122, its example. -/
theorem test_ldy_r122 : runs [0xA0, 0x00] []
    (fun c => { c with y := 0x55 })
    (fun c => { c with y := 0x00, pc := 0x0602, p := { c.p with z := true }, cycles := 2 }) [] = true := by decide +kernel

/-- 41_load_store_transfer.md rule R123, its example. -/
theorem test_sta_r123 : runs [0x8D, 0x00, 0x02] []
    (fun c => { c with a := 0x01 })
    (fun c => { c with pc := 0x0603, cycles := 4 }) [(0x0200, 0x01)] = true := by decide +kernel

/-- 41_load_store_transfer.md rule R124, its example. -/
theorem test_stx_r124 : runs [0x96, 0xF0] []
    (fun c => { c with x := 0x7E, y := 0x20 })
    (fun c => { c with pc := 0x0602, cycles := 4 }) [(0x0010, 0x7E)] = true := by decide +kernel

/-- 41_load_store_transfer.md rule R125, its example. -/
theorem test_sty_r125 : runs [0x84, 0x10] []
    (fun c => { c with y := 0x99 })
    (fun c => { c with pc := 0x0602, cycles := 3 }) [(0x0010, 0x99)] = true := by decide +kernel

/-- 41_load_store_transfer.md rule R126, its example. -/
theorem test_tax_r126 : runs [0xAA] []
    (fun c => { c with a := 0x80 })
    (fun c => { c with x := 0x80, pc := 0x0601, p := { c.p with n := true }, cycles := 2 }) [] = true := by decide +kernel

/-- 41_load_store_transfer.md rule R127, its example. -/
theorem test_tay_r127 : runs [0xA8] []
    (fun c => { c with a := 0x80 })
    (fun c => { c with y := 0x80, pc := 0x0601, p := { c.p with n := true }, cycles := 2 }) [] = true := by decide +kernel

/-- 41_load_store_transfer.md rule R128, its example. -/
theorem test_txa_r128 : runs [0x8A] []
    (fun c => { c with x := 0x80 })
    (fun c => { c with a := 0x80, pc := 0x0601, p := { c.p with n := true }, cycles := 2 }) [] = true := by decide +kernel

/-- 41_load_store_transfer.md rule R129, its example. -/
theorem test_tya_r129 : runs [0x98] []
    (fun c => { c with y := 0x80 })
    (fun c => { c with a := 0x80, pc := 0x0601, p := { c.p with n := true }, cycles := 2 }) [] = true := by decide +kernel

/-- 41_load_store_transfer.md rule R130, its example. -/
theorem test_tsx_r130 : runs [0xBA] []
    (fun c => { c with s := 0x80 })
    (fun c => { c with x := 0x80, pc := 0x0601, p := { c.p with n := true }, cycles := 2 }) [] = true := by decide +kernel

/-- 41_load_store_transfer.md rule R131, its example. -/
theorem test_txs_r131 : runs [0x9A] []
    (fun c => { c with x := 0xFF })
    (fun c => { c with s := 0xFF, pc := 0x0601, cycles := 2 }) [] = true := by decide +kernel

/-- 42_stack.md rule R140, its example. -/
theorem test_pha_r140 : runs [0x48] []
    (fun c => { c with a := 0x42, s := 0x00 })
    (fun c => { c with s := 0xFF, pc := 0x0601, cycles := 3 }) [(0x0100, 0x42)] = true := by decide +kernel

/-- 42_stack.md rule R141, its example. -/
theorem test_php_r141 : runs [0x08] []
    (fun c => { c with p := { c.p with c := true, n := true } })
    (fun c => { c with s := 0xFC, pc := 0x0601, cycles := 3 }) [(0x01FD, 0xB5)] = true := by decide +kernel

/-- 42_stack.md rule R142, its example. -/
theorem test_pla_r142 : runs [0x68] [(0x0100, 0x00)]
    (fun c => { c with a := 0x11, s := 0xFF })
    (fun c => { c with a := 0x00, s := 0x00, pc := 0x0601, p := { c.p with z := true }, cycles := 4 }) [] = true := by decide +kernel

/-- 42_stack.md rule R143, its example. -/
theorem test_plp_r143 : runs [0x28] [(0x01FD, 0xFF)]
    (fun c => { c with s := 0xFC })
    (fun c => { c with s := 0xFD, pc := 0x0601, p := { c.p with c := true, z := true, d := true, v := true, n := true }, cycles := 4 }) [] = true := by decide +kernel

/-- 43_logic_arith.md rule R150, its example. -/
theorem test_and_r150 : runs [0x29, 0x0F] []
    (fun c => { c with a := 0xF0 })
    (fun c => { c with a := 0x00, pc := 0x0602, p := { c.p with z := true }, cycles := 2 }) [] = true := by decide +kernel

/-- 43_logic_arith.md rule R151, its example. -/
theorem test_ora_r151 : runs [0x11, 0x20] [(0x0020, 0xF8), (0x0021, 0x02), (0x0308, 0x80)]
    (fun c => { c with a := 0x01, y := 0x10 })
    (fun c => { c with a := 0x81, pc := 0x0602, p := { c.p with n := true }, cycles := 6 }) [] = true := by decide +kernel

/-- 43_logic_arith.md rule R152, its example. -/
theorem test_eor_r152 : runs [0x49, 0xFF] []
    (fun c => { c with a := 0xFF })
    (fun c => { c with a := 0x00, pc := 0x0602, p := { c.p with z := true }, cycles := 2 }) [] = true := by decide +kernel

/-- 43_logic_arith.md rule R153, its example. -/
theorem test_bit_r153 : runs [0x24, 0x10] [(0x0010, 0xC0)]
    (fun c => { c with a := 0x01 })
    (fun c => { c with pc := 0x0602, p := { c.p with z := true, v := true, n := true }, cycles := 3 }) [] = true := by decide +kernel

/-- 43_logic_arith.md rule R154, its example. -/
theorem test_cmp_r154 : runs [0xC9, 0x40] []
    (fun c => { c with a := 0x30 })
    (fun c => { c with pc := 0x0602, p := { c.p with n := true }, cycles := 2 }) [] = true := by decide +kernel

/-- 43_logic_arith.md rule R155, its example. -/
theorem test_cpx_r155 : runs [0xE0, 0x10] []
    (fun c => { c with x := 0x10 })
    (fun c => { c with pc := 0x0602, p := { c.p with c := true, z := true }, cycles := 2 }) [] = true := by decide +kernel

/-- 43_logic_arith.md rule R156, its example. -/
theorem test_cpy_r156 : runs [0xC4, 0x10] [(0x0010, 0x01)]
    (fun c => { c with y := 0x80 })
    (fun c => { c with pc := 0x0602, p := { c.p with c := true }, cycles := 3 }) [] = true := by decide +kernel

/-- 43_logic_arith.md rule R157, its example. -/
theorem test_adc_r157 : runs [0x69, 0x01] []
    (fun c => { c with a := 0x09, p := { c.p with d := true } })
    (fun c => { c with a := 0x10, pc := 0x0602, cycles := 2 }) [] = true := by decide +kernel

/-- 43_logic_arith.md rule R159, its example. -/
theorem test_sbc_r159 : runs [0xE9, 0x01] []
    (fun c => { c with a := 0x10, p := { c.p with c := true, d := true } })
    (fun c => { c with a := 0x09, pc := 0x0602, cycles := 2 }) [] = true := by decide +kernel

/-- 44_incdec_shift.md rule R170, its example. -/
theorem test_inc_r170 : runs [0xE6, 0x10] [(0x0010, 0xFF)]
    (fun c => c)
    (fun c => { c with pc := 0x0602, p := { c.p with z := true }, cycles := 5 }) [(0x0010, 0x00)] = true := by decide +kernel

/-- 44_incdec_shift.md rule R171, its example. -/
theorem test_dec_r171 : runs [0xDE, 0x00, 0x02] [(0x0201, 0x00)]
    (fun c => { c with x := 0x01 })
    (fun c => { c with pc := 0x0603, p := { c.p with n := true }, cycles := 7 }) [(0x0201, 0xFF)] = true := by decide +kernel

/-- 44_incdec_shift.md rule R172, its example. -/
theorem test_inx_r172 : runs [0xE8] []
    (fun c => { c with x := 0x01 })
    (fun c => { c with x := 0x02, pc := 0x0601, cycles := 2 }) [] = true := by decide +kernel

/-- 44_incdec_shift.md rule R173, its example. -/
theorem test_iny_r173 : runs [0xC8] []
    (fun c => { c with y := 0xFF })
    (fun c => { c with y := 0x00, pc := 0x0601, p := { c.p with z := true }, cycles := 2 }) [] = true := by decide +kernel

/-- 44_incdec_shift.md rule R174, its example. -/
theorem test_dex_r174 : runs [0xCA] []
    (fun c => c)
    (fun c => { c with x := 0xFF, pc := 0x0601, p := { c.p with n := true }, cycles := 2 }) [] = true := by decide +kernel

/-- 44_incdec_shift.md rule R175, its example. -/
theorem test_dey_r175 : runs [0x88] []
    (fun c => { c with y := 0x01 })
    (fun c => { c with y := 0x00, pc := 0x0601, p := { c.p with z := true }, cycles := 2 }) [] = true := by decide +kernel

/-- 44_incdec_shift.md rule R176, its example. -/
theorem test_asl_r176 : runs [0x0A] []
    (fun c => { c with a := 0x81 })
    (fun c => { c with a := 0x02, pc := 0x0601, p := { c.p with c := true }, cycles := 2 }) [] = true := by decide +kernel

/-- 44_incdec_shift.md rule R177, its example. -/
theorem test_lsr_r177 : runs [0x46, 0x10] [(0x0010, 0x01)]
    (fun c => c)
    (fun c => { c with pc := 0x0602, p := { c.p with c := true, z := true }, cycles := 5 }) [(0x0010, 0x00)] = true := by decide +kernel

/-- 44_incdec_shift.md rule R178, its example. -/
theorem test_rol_r178 : runs [0x2A] []
    (fun c => { c with a := 0x80, p := { c.p with c := true } })
    (fun c => { c with a := 0x01, pc := 0x0601, cycles := 2 }) [] = true := by decide +kernel

/-- 44_incdec_shift.md rule R179, its example. -/
theorem test_ror_r179 : runs [0x6E, 0x00, 0x02] [(0x0200, 0x01)]
    (fun c => { c with p := { c.p with c := true } })
    (fun c => { c with pc := 0x0603, p := { c.p with n := true }, cycles := 6 }) [(0x0200, 0x80)] = true := by decide +kernel

/-- 45_control.md rule R190, its example. -/
theorem test_jmp_r190 : runs [0x6C, 0xFF, 0x02] [(0x02FF, 0x34), (0x0200, 0x12), (0x0300, 0x99)]
    (fun c => c)
    (fun c => { c with pc := 0x1234, cycles := 5 }) [] = true := by decide +kernel

/-- 45_control.md rule R191, its example. -/
theorem test_jsr_r191 : runs [0x20, 0x34, 0x12] []
    (fun c => c)
    (fun c => { c with s := 0xFB, pc := 0x1234, cycles := 6 }) [(0x01FD, 0x06), (0x01FC, 0x02)] = true := by decide +kernel

/-- 45_control.md rule R192, its example. -/
theorem test_rts_r192 : runs [0x60] [(0x01FC, 0x02), (0x01FD, 0x06)]
    (fun c => { c with s := 0xFB })
    (fun c => { c with s := 0xFD, pc := 0x0603, cycles := 6 }) [] = true := by decide +kernel

/-- 45_control.md rule R194, its example. -/
theorem test_bcc_r194 : runs [0x90, 0x10] []
    (fun c => c)
    (fun c => { c with pc := 0x0612, cycles := 3 }) [] = true := by decide +kernel

/-- 45_control.md rule R195, its example. -/
theorem test_bcs_r195 : runs [0xB0, 0x80] []
    (fun c => { c with p := { c.p with c := true } })
    (fun c => { c with pc := 0x0582, cycles := 4 }) [] = true := by decide +kernel

/-- 45_control.md rule R196, its example. -/
theorem test_beq_r196 : runs [0xF0, 0x10] []
    (fun c => c)
    (fun c => { c with pc := 0x0602, cycles := 2 }) [] = true := by decide +kernel

/-- 45_control.md rule R197, its example. -/
theorem test_bne_r197 : runs [0xD0, 0xFC] []
    (fun c => c)
    (fun c => { c with pc := 0x05FE, cycles := 4 }) [] = true := by decide +kernel

/-- 45_control.md rule R198, its example. -/
theorem test_bmi_r198 : runs [0x30, 0x00] []
    (fun c => { c with p := { c.p with n := true } })
    (fun c => { c with pc := 0x0602, cycles := 3 }) [] = true := by decide +kernel

/-- 45_control.md rule R199, its example. -/
theorem test_bpl_r199 : runs [0x10, 0x7F] []
    (fun c => { c with pc := 0x06F0 })
    (fun c => { c with pc := 0x0771, cycles := 4 }) [] = true := by decide +kernel

/-- 45_control.md rule R200, its example. -/
theorem test_bvc_r200 : runs [0x50, 0x10] []
    (fun c => { c with p := { c.p with v := true } })
    (fun c => { c with pc := 0x0602, cycles := 2 }) [] = true := by decide +kernel

/-- 45_control.md rule R201, its example. -/
theorem test_bvs_r201 : runs [0x70, 0x10] []
    (fun c => { c with p := { c.p with v := true } })
    (fun c => { c with pc := 0x0612, cycles := 3 }) [] = true := by decide +kernel

/-- 46_system_flags.md rule R210, its example. -/
theorem test_clc_r210 : runs [0x18] []
    (fun c => { c with p := { c.p with c := true } })
    (fun c => { c with pc := 0x0601, p := { c.p with c := false }, cycles := 2 }) [] = true := by decide +kernel

/-- 46_system_flags.md rule R211, its example. -/
theorem test_sec_r211 : runs [0x38] []
    (fun c => c)
    (fun c => { c with pc := 0x0601, p := { c.p with c := true }, cycles := 2 }) [] = true := by decide +kernel

/-- 46_system_flags.md rule R212, its example. -/
theorem test_cli_r212 : runs [0x58] []
    (fun c => c)
    (fun c => { c with pc := 0x0601, p := { c.p with i := false }, cycles := 2 }) [] = true := by decide +kernel

/-- 46_system_flags.md rule R213, its example. -/
theorem test_sei_r213 : runs [0x78] []
    (fun c => { c with p := { c.p with i := false } })
    (fun c => { c with pc := 0x0601, p := { c.p with i := true }, cycles := 2 }) [] = true := by decide +kernel

/-- 46_system_flags.md rule R214, its example. -/
theorem test_cld_r214 : runs [0xD8] []
    (fun c => { c with p := { c.p with d := true } })
    (fun c => { c with pc := 0x0601, p := { c.p with d := false }, cycles := 2 }) [] = true := by decide +kernel

/-- 46_system_flags.md rule R215, its example. -/
theorem test_sed_r215 : runs [0xF8] []
    (fun c => c)
    (fun c => { c with pc := 0x0601, p := { c.p with d := true }, cycles := 2 }) [] = true := by decide +kernel

/-- 46_system_flags.md rule R216, its example. -/
theorem test_clv_r216 : runs [0xB8] []
    (fun c => { c with p := { c.p with v := true } })
    (fun c => { c with pc := 0x0601, p := { c.p with v := false }, cycles := 2 }) [] = true := by decide +kernel

/-- 46_system_flags.md rule R217, its example. -/
theorem test_nop_r217 : runs [0xEA] []
    (fun c => c)
    (fun c => { c with pc := 0x0601, cycles := 2 }) [] = true := by decide +kernel

/-- 46_system_flags.md rule R218, its example. -/
theorem test_brk_r218 : runs [0x00] []
    (fun c => { c with a := 0x01, x := 0x02, pc := 0x8009 })
    (fun c => { c with halted := true, haltCause := some (.brk 0x8009) }) [] = true := by decide +kernel

/-- 46_system_flags.md rule R220, its example. -/
theorem test_rti_r220 : runs [0x40] [(0x01FB, 0xC3), (0x01FC, 0x34), (0x01FD, 0x12)]
    (fun c => { c with s := 0xFA })
    (fun c => { c with s := 0xFD, pc := 0x1234, p := { c.p with c := true, z := true, i := false, v := true, n := true }, cycles := 6 }) [] = true := by decide +kernel

/-- 47_undocumented.md rule R230, its example. -/
theorem test_nop_r230 : runs [0x1C, 0xF0, 0x02] []
    (fun c => { c with a := 0x55, x := 0x20 })
    (fun c => { c with pc := 0x0603, cycles := 5 }) [] = true := by decide +kernel

/-- 47_undocumented.md rule R231, its example. -/
theorem test_lax_r231 : runs [0xA7, 0x10] [(0x0010, 0x8F)]
    (fun c => c)
    (fun c => { c with a := 0x8F, x := 0x8F, pc := 0x0602, p := { c.p with n := true }, cycles := 3 }) [] = true := by decide +kernel

/-- 47_undocumented.md rule R232, its example. -/
theorem test_sax_r232 : runs [0x87, 0x10] []
    (fun c => { c with a := 0xF3, x := 0x3F })
    (fun c => { c with pc := 0x0602, cycles := 3 }) [(0x0010, 0x33)] = true := by decide +kernel

/-- 47_undocumented.md rule R233, its example. -/
theorem test_dcp_r233 : runs [0xC7, 0x10] [(0x0010, 0x41)]
    (fun c => { c with a := 0x40 })
    (fun c => { c with pc := 0x0602, p := { c.p with c := true, z := true }, cycles := 5 }) [(0x0010, 0x40)] = true := by decide +kernel

/-- 47_undocumented.md rule R234, its example. -/
theorem test_isc_r234 : runs [0xE7, 0x10] [(0x0010, 0x0F)]
    (fun c => { c with a := 0x10, p := { c.p with c := true } })
    (fun c => { c with a := 0x00, pc := 0x0602, p := { c.p with z := true }, cycles := 5 }) [(0x0010, 0x10)] = true := by decide +kernel

/-- 47_undocumented.md rule R235, its example. -/
theorem test_slo_r235 : runs [0x07, 0x10] [(0x0010, 0xC0)]
    (fun c => { c with a := 0x01 })
    (fun c => { c with a := 0x81, pc := 0x0602, p := { c.p with c := true, n := true }, cycles := 5 }) [(0x0010, 0x80)] = true := by decide +kernel

/-- 47_undocumented.md rule R236, its example. -/
theorem test_rla_r236 : runs [0x27, 0x10] [(0x0010, 0x40)]
    (fun c => { c with a := 0xFF, p := { c.p with c := true } })
    (fun c => { c with a := 0x81, pc := 0x0602, p := { c.p with c := false, n := true }, cycles := 5 }) [(0x0010, 0x81)] = true := by decide +kernel

/-- 47_undocumented.md rule R237, its example. -/
theorem test_sre_r237 : runs [0x47, 0x10] [(0x0010, 0x03)]
    (fun c => { c with a := 0x01 })
    (fun c => { c with a := 0x00, pc := 0x0602, p := { c.p with c := true, z := true }, cycles := 5 }) [(0x0010, 0x01)] = true := by decide +kernel

/-- 47_undocumented.md rule R238, its example. -/
theorem test_rra_r238 : runs [0x67, 0x10] [(0x0010, 0x03)]
    (fun c => { c with a := 0x10 })
    (fun c => { c with a := 0x12, pc := 0x0602, cycles := 5 }) [(0x0010, 0x01)] = true := by decide +kernel

/-- 47_undocumented.md rule R239, its example. -/
theorem test_anc_r239 : runs [0x0B, 0xF0] []
    (fun c => { c with a := 0x81 })
    (fun c => { c with a := 0x80, pc := 0x0602, p := { c.p with c := true, n := true }, cycles := 2 }) [] = true := by decide +kernel

/-- 47_undocumented.md rule R240, its example. -/
theorem test_alr_r240 : runs [0x4B, 0x03] []
    (fun c => { c with a := 0xFF })
    (fun c => { c with a := 0x01, pc := 0x0602, p := { c.p with c := true }, cycles := 2 }) [] = true := by decide +kernel

/-- 47_undocumented.md rule R241, its example. -/
theorem test_arr_r241 : runs [0x6B, 0xFF] []
    (fun c => { c with a := 0xC0, p := { c.p with c := true } })
    (fun c => { c with a := 0xE0, pc := 0x0602, p := { c.p with n := true }, cycles := 2 }) [] = true := by decide +kernel

/-- 47_undocumented.md rule R242, its example. -/
theorem test_axs_r242 : runs [0xCB, 0x02] []
    (fun c => { c with a := 0x0F, x := 0x35 })
    (fun c => { c with x := 0x03, pc := 0x0602, p := { c.p with c := true }, cycles := 2 }) [] = true := by decide +kernel

/-- 47_undocumented.md rule R243, its example. -/
theorem test_sbc_r243 : runs [0xEB, 0x01] []
    (fun c => { c with p := { c.p with c := true } })
    (fun c => { c with a := 0xFF, pc := 0x0602, p := { c.p with c := false, n := true }, cycles := 2 }) [] = true := by decide +kernel

/-- 47_undocumented.md rule R244, its example. -/
theorem test_las_r244 : runs [0xBB, 0x00, 0x02] [(0x0201, 0x3C)]
    (fun c => { c with y := 0x01, s := 0xF0 })
    (fun c => { c with a := 0x30, x := 0x30, s := 0x30, pc := 0x0603, cycles := 4 }) [] = true := by decide +kernel

/-- 47_undocumented.md rule R245, its example. -/
theorem test_jam_r245 : runs [0x02] []
    (fun c => { c with a := 0x7F })
    (fun c => { c with halted := true, haltCause := some (.illegalOpcode 0x0600 0x02) }) [] = true := by decide +kernel

/-- 47_undocumented.md rule R246, its example. -/
theorem test_xaa_r246 : runs [0x8B, 0x00] []
    (fun c => { c with a := 0x7F })
    (fun c => { c with halted := true, haltCause := some (.illegalOpcode 0x0600 0x8B) }) [] = true := by decide +kernel

/-- 47_undocumented.md rule R247, its example. -/
theorem test_lxa_r247 : runs [0xAB, 0x00] []
    (fun c => { c with a := 0x7F })
    (fun c => { c with halted := true, haltCause := some (.illegalOpcode 0x0600 0xAB) }) [] = true := by decide +kernel

/-- 47_undocumented.md rule R248, its example. -/
theorem test_sha_r248 : runs [0x93, 0x00] []
    (fun c => { c with a := 0x7F })
    (fun c => { c with halted := true, haltCause := some (.illegalOpcode 0x0600 0x93) }) [] = true := by decide +kernel

/-- 47_undocumented.md rule R249, its example. -/
theorem test_shy_r249 : runs [0x9C, 0x00, 0x02] []
    (fun c => { c with a := 0x7F })
    (fun c => { c with halted := true, haltCause := some (.illegalOpcode 0x0600 0x9C) }) [] = true := by decide +kernel

/-- 47_undocumented.md rule R250, its example. -/
theorem test_shx_r250 : runs [0x9E, 0x00, 0x02] []
    (fun c => { c with a := 0x7F })
    (fun c => { c with halted := true, haltCause := some (.illegalOpcode 0x0600 0x9E) }) [] = true := by decide +kernel

/-- 47_undocumented.md rule R251, its example. -/
theorem test_tas_r251 : runs [0x9B, 0x00, 0x02] []
    (fun c => { c with a := 0x7F })
    (fun c => { c with halted := true, haltCause := some (.illegalOpcode 0x0600 0x9B) }) [] = true := by decide +kernel

/-- 95_test_vectors TA4: zero page,X wraps within page 0: 0x80 + 0xFF -> 0x7F, not 0x017F. -/
theorem test_lda_ta4 : runs [0xB5, 0x80] [(0x007F, 0x42), (0x017F, 0x99)]
    (fun c => { c with x := 0xFF })
    (fun c => { c with a := 0x42, pc := 0x0602, cycles := 4 }) [] = true := by decide +kernel

/-- 95_test_vectors TA7: (zp,X) pointer high byte from 0x0000, not 0x0100. -/
theorem test_lda_ta7 : runs [0xA1, 0xFF] [(0x00FF, 0x34), (0x0000, 0x12), (0x0100, 0x77), (0x1234, 0x21)]
    (fun c => c)
    (fun c => { c with a := 0x21, pc := 0x0602, cycles := 6 }) [] = true := by decide +kernel

/-- 95_test_vectors TA11: (zp),Y with page cross: cost 6. -/
theorem test_lda_ta11 : runs [0xB1, 0x10] [(0x0010, 0xFF), (0x0011, 0x12), (0x1300, 0x9C)]
    (fun c => { c with y := 0x01 })
    (fun c => { c with a := 0x9C, pc := 0x0602, p := { c.p with n := true }, cycles := 6 }) [] = true := by decide +kernel

/-- 95_test_vectors TA13: (zp),Y pointer at 0xFF takes its high byte from 0x0000. -/
theorem test_lda_ta13 : runs [0xB1, 0xFF] [(0x00FF, 0x00), (0x0000, 0x04), (0x0100, 0x09), (0x0400, 0x5E)]
    (fun c => c)
    (fun c => { c with a := 0x5E, pc := 0x0602, cycles := 5 }) [] = true := by decide +kernel

/-- 95_test_vectors TA15: absolute,X wraps past 0xFFFF to 0x0001; counts as a page cross. -/
theorem test_ldy_ta15 : runs [0xBC, 0xFF, 0xFF] [(0x0001, 0x44)]
    (fun c => { c with x := 0x02 })
    (fun c => { c with y := 0x44, pc := 0x0603, cycles := 5 }) [] = true := by decide +kernel

/-- 95_test_vectors TA17: STA absolute,X: fixed 5, no extra cycle on cross. -/
theorem test_sta_ta17 : runs [0x9D, 0xFF, 0x12] []
    (fun c => { c with a := 0xAB, x := 0x01 })
    (fun c => { c with pc := 0x0603, cycles := 5 }) [(0x1300, 0xAB)] = true := by decide +kernel

/-- 95_test_vectors TA21: STX zero page,Y wraps to 0x0001. -/
theorem test_stx_ta21 : runs [0x96, 0xFF] []
    (fun c => { c with x := 0x77, y := 0x02 })
    (fun c => { c with pc := 0x0602, cycles := 4 }) [(0x0001, 0x77)] = true := by decide +kernel

/-- 95_test_vectors TB2: S wraps 0x00 -> 0xFF; the byte goes to 0x0100. -/
theorem test_pha_tb2 : runs [0x48] []
    (fun c => { c with a := 0x3C, s := 0x00 })
    (fun c => { c with s := 0xFF, pc := 0x0601, cycles := 3 }) [(0x0100, 0x3C)] = true := by decide +kernel

/-- 95_test_vectors TB4: all flags 0, I = 0: pushes 0x30. -/
theorem test_php_tb4 : runs [0x08] []
    (fun c => { c with p := { c.p with i := false } })
    (fun c => { c with s := 0xFC, pc := 0x0601, cycles := 3 }) [(0x01FD, 0x30)] = true := by decide +kernel

/-- 95_test_vectors TB5: S wraps 0xFF -> 0x00; reads 0x0100, never 0x0200. -/
theorem test_pla_tb5 : runs [0x68] [(0x0100, 0x80), (0x0200, 0x11)]
    (fun c => { c with s := 0xFF })
    (fun c => { c with a := 0x80, s := 0x00, pc := 0x0601, p := { c.p with n := true }, cycles := 4 }) [] = true := by decide +kernel

/-- 95_test_vectors TB8: pulled 0x30 clears all six including I. -/
theorem test_plp_tb8 : runs [0x28] [(0x01FD, 0x30)]
    (fun c => { c with s := 0xFC, p := { c.p with c := true, z := true, d := true, v := true, n := true } })
    (fun c => { c with s := 0xFD, pc := 0x0601, p := { c.p with c := false, z := false, i := false, d := false, v := false, n := false }, cycles := 4 }) [] = true := by decide +kernel

/-- 95_test_vectors TC5: BIT clears N, V, Z. -/
theorem test_bit_tc5 : runs [0x2C, 0x00, 0x03] [(0x0300, 0x3F)]
    (fun c => { c with a := 0xFF, p := { c.p with v := true, n := true } })
    (fun c => { c with pc := 0x0603, p := { c.p with v := false, n := false }, cycles := 4 }) [] = true := by decide +kernel

/-- 95_test_vectors TC8: unsigned compare: 0x80 >= 0, N = 1. -/
theorem test_cmp_tc8 : runs [0xC9, 0x00] []
    (fun c => { c with a := 0x80 })
    (fun c => { c with pc := 0x0602, p := { c.p with c := true, n := true }, cycles := 2 }) [] = true := by decide +kernel

/-- 95_test_vectors TC14: 0x7F + 0x7F + 1 = 0xFF: V = 1. -/
theorem test_adc_tc14 : runs [0x69, 0x7F] []
    (fun c => { c with a := 0x7F, p := { c.p with c := true } })
    (fun c => { c with a := 0xFF, pc := 0x0602, p := { c.p with c := false, v := true, n := true }, cycles := 2 }) [] = true := by decide +kernel

/-- 95_test_vectors TC26: decimal 12 - 21 = 91 borrow. -/
theorem test_sbc_tc26 : runs [0xE9, 0x21] []
    (fun c => { c with a := 0x12, p := { c.p with c := true, d := true } })
    (fun c => { c with a := 0x91, pc := 0x0602, p := { c.p with c := false, n := true }, cycles := 2 }) [] = true := by decide +kernel

/-- 95_test_vectors TD3: INC absolute,X: 7 with or without cross. -/
theorem test_inc_td3 : runs [0xFE, 0xFF, 0x12] [(0x1300, 0x7F)]
    (fun c => { c with x := 0x01 })
    (fun c => { c with pc := 0x0603, p := { c.p with n := true }, cycles := 7 }) [(0x1300, 0x80)] = true := by decide +kernel

/-- 95_test_vectors TD14: ROR absolute,X. -/
theorem test_ror_td14 : runs [0x7E, 0x00, 0x03] [(0x0305, 0xFE)]
    (fun c => { c with x := 0x05, p := { c.p with c := true } })
    (fun c => { c with pc := 0x0603, p := { c.p with c := false, n := true }, cycles := 7 }) [(0x0305, 0xFF)] = true := by decide +kernel

/-- 95_test_vectors TD15: ROL zero page,X with wrap. -/
theorem test_rol_td15 : runs [0x36, 0xF0] [(0x0010, 0x40)]
    (fun c => { c with x := 0x20 })
    (fun c => { c with pc := 0x0602, p := { c.p with n := true }, cycles := 6 }) [(0x0010, 0x80)] = true := by decide +kernel

/-- 95_test_vectors TK3: JMP (ind) ordinary. -/
theorem test_jmp_tk3 : runs [0x6C, 0x00, 0x03] [(0x0300, 0xCD), (0x0301, 0xAB)]
    (fun c => c)
    (fun c => { c with pc := 0xABCD, cycles := 5 }) [] = true := by decide +kernel

/-- 95_test_vectors TK4c: RTS across the stack wrap; 0xFFFF + 1 wraps to 0x0000. -/
theorem test_rts_tk4c : runs [0x60] [(0x01FF, 0xFF), (0x0100, 0xFF)]
    (fun c => { c with s := 0xFE })
    (fun c => { c with s := 0x00, pc := 0x0000, cycles := 6 }) [] = true := by decide +kernel

/-- 95_test_vectors TK8: offset -128: 0x0602 - 0x80 = 0x0582, page cross: cost 4. -/
theorem test_bne_tk8 : runs [0xD0, 0x80] []
    (fun c => c)
    (fun c => { c with pc := 0x0582, cycles := 4 }) [] = true := by decide +kernel

/-- 95_test_vectors TK10: 0x06F2 + 0x0C = 0x06FE: same page as the next instruction: 3. -/
theorem test_bcc_tk10 : runs [0x90, 0x0C] []
    (fun c => { c with pc := 0x06F0 })
    (fun c => { c with pc := 0x06FE, cycles := 3 }) [] = true := by decide +kernel

/-- 95_test_vectors TK18: BVS not taken. -/
theorem test_bvs_tk18 : runs [0x70, 0x02] []
    (fun c => c)
    (fun c => { c with pc := 0x0602, cycles := 2 }) [] = true := by decide +kernel

/-- 95_test_vectors TF4: SEI. -/
theorem test_sei_tf4 : runs [0x78] []
    (fun c => { c with p := { c.p with i := false } })
    (fun c => { c with pc := 0x0601, p := { c.p with i := true }, cycles := 2 }) [] = true := by decide +kernel

/-- 95_test_vectors TF8: NOP changes nothing. -/
theorem test_nop_tf8 : runs [0xEA] []
    (fun c => { c with p := { c.p with c := true, z := true, d := true, v := true, n := true } })
    (fun c => { c with pc := 0x0601, cycles := 2 }) [] = true := by decide +kernel

/-- 95_test_vectors TG2: NOP absolute,X pays the page cross: 5. -/
theorem test_nop_tg2 : runs [0x1C, 0xFF, 0x12] []
    (fun c => { c with x := 0x01 })
    (fun c => { c with pc := 0x0603, cycles := 5 }) [] = true := by decide +kernel

/-- 95_test_vectors TG6: LAX (zp),Y with cross: 6; loads 0x00 into A and X, Z set. -/
theorem test_lax_tg6 : runs [0xB3, 0x10] [(0x0010, 0xFF), (0x0011, 0x02), (0x0300, 0x00)]
    (fun c => { c with y := 0x01 })
    (fun c => { c with pc := 0x0602, p := { c.p with z := true }, cycles := 6 }) [] = true := by decide +kernel

/-- 95_test_vectors TG8: SAX (zp,X): X is both index and data. -/
theorem test_sax_tg8 : runs [0x83, 0x10] [(0x0012, 0x00), (0x0013, 0x03)]
    (fun c => { c with a := 0xFF, x := 0x02 })
    (fun c => { c with pc := 0x0602, cycles := 6 }) [(0x0300, 0x02)] = true := by decide +kernel

/-- 95_test_vectors TG10: DCP: memory wraps to 0xFF; 0 < 0xFF so C = 0. -/
theorem test_dcp_tg10 : runs [0xC7, 0x10] [(0x0010, 0x00)]
    (fun c => c)
    (fun c => { c with pc := 0x0602, cycles := 5 }) [(0x0010, 0xFF)] = true := by decide +kernel

/-- 95_test_vectors TG12: ISC in decimal mode: 20 - 09 = 11. -/
theorem test_isc_tg12 : runs [0xE7, 0x10] [(0x0010, 0x08)]
    (fun c => { c with a := 0x20, p := { c.p with c := true, d := true } })
    (fun c => { c with a := 0x11, pc := 0x0602, cycles := 5 }) [(0x0010, 0x09)] = true := by decide +kernel

/-- 95_test_vectors TG17: RRA absolute,X: fixed 7. -/
theorem test_rra_tg17 : runs [0x7F, 0xFF, 0x12] [(0x1300, 0x02)]
    (fun c => { c with x := 0x01 })
    (fun c => { c with a := 0x01, pc := 0x0603, cycles := 7 }) [(0x1300, 0x01)] = true := by decide +kernel

/-- 95_test_vectors TG19: ANC 0x2B: same; C cleared. -/
theorem test_anc_tg19 : runs [0x2B, 0x7F] []
    (fun c => { c with a := 0xFF, p := { c.p with c := true } })
    (fun c => { c with a := 0x7F, pc := 0x0602, p := { c.p with c := false }, cycles := 2 }) [] = true := by decide +kernel

/-- 95_test_vectors TG23: ARR binary: (0xFF & 0x0F) = 0x0F -> 0x87. -/
theorem test_arr_tg23 : runs [0x6B, 0x0F] []
    (fun c => { c with a := 0xFF, p := { c.p with c := true } })
    (fun c => { c with a := 0x87, pc := 0x0602, p := { c.p with c := false, n := true }, cycles := 2 }) [] = true := by decide +kernel

/-- 95_test_vectors TG25: AXS with borrow: C = 0. -/
theorem test_axs_tg25 : runs [0xCB, 0x10] []
    (fun c => { c with a := 0x0F, x := 0x0F, p := { c.p with c := true } })
    (fun c => { c with x := 0xFF, pc := 0x0602, p := { c.p with c := false, n := true }, cycles := 2 }) [] = true := by decide +kernel

/-- 95_test_vectors TG29: JAM (last of the twelve). -/
theorem test_jam_tg29 : runs [0xF2] []
    (fun c => c)
    (fun c => { c with halted := true, haltCause := some (.illegalOpcode 0x0600 0xF2) }) [] = true := by decide +kernel

/-- 95_test_vectors TG31: LXA: HALT. -/
theorem test_lxa_tg31 : runs [0xAB, 0xFF] []
    (fun c => c)
    (fun c => { c with halted := true, haltCause := some (.illegalOpcode 0x0600 0xAB) }) [] = true := by decide +kernel

/-! ## The status byte, the interrupts, BRK as an interrupt (95_test_vectors TH1 to TH8, TF10) -/

/-- NMI at 0x9000, reset at 0x8000, IRQ at 0xA000 (the vectors of TH1). -/
def vectors : List (Word × Byte) := [(0xFFFB, 0x90), (0xFFFD, 0x80), (0xFFFF, 0xA0)]

/-- The standard start with the vectors and LDA #$01 at `PC`. -/
def withVectors : State := pokeAll vectors (pokes 0x0600 [0xA9, 0x01] start)

/-- The standard start with other flags. -/
def flagged (p : Flags) : State := { withVectors with cpu := { withVectors.cpu with p := p } }

/-- The vector TH1: NMI pushes 0x06, 0x00 and status 0xA1, and costs 7. -/
theorem test_nmi_th1 :
    (let s := flagged { Flags.reset with n := true, c := true, i := false }
     leaves (step { s with ppu := { s.ppu with nmiRequest := true } }) fun t =>
       t.cpu.pc == 0x9000 && t.cpu.s == 0xFA && t.cpu.p.i && t.cpu.cycles == 7 && !t.ppu.nmiRequest &&
       t.bus.ram == [(0x01FB, 0xA1), (0x01FD, 0x06), (0x0600, 0xA9), (0x0601, 0x01)]) = true := by decide +kernel

/-- The vector TH4: an IRQ with I clear goes through 0xFFFE with status 0x22. -/
theorem test_irq_th4 :
    (let s := flagged { Flags.reset with z := true, i := false }
     leaves (step { s with irqLine := true }) fun t =>
       t.cpu.pc == 0xA000 && t.cpu.s == 0xFA && t.cpu.p.i && t.cpu.cycles == 7 &&
       readCell t.bus.ram 0x01FB == 0x22) = true := by decide +kernel

/-- The vector TH3: an IRQ with I set is ignored. -/
theorem test_irq_th3 :
    leaves (step { withVectors with irqLine := true }) (fun t => t.cpu.pc == 0x0602 && t.cpu.a == 0x01) = true := by
  decide +kernel

/-- The vector TH5: with both pending the NMI wins. -/
theorem test_both_th5 :
    (let s := flagged { Flags.reset with i := false }
     leaves (step { s with irqLine := true, ppu := { s.ppu with nmiRequest := true } }) fun t =>
       t.cpu.pc == 0x9000 && readCell t.bus.ram 0x01FB == 0x20) = true := by decide +kernel

/-- The vector TH8: the NMI is taken before a JAM is fetched. -/
theorem test_nmi_before_jam_th8 :
    (let s := pokes 0x0600 [0x02] withVectors
     leaves (step { s with ppu := { s.ppu with nmiRequest := true } }) fun t =>
       t.cpu.pc == 0x9000 && t.cpu.s == 0xFA && !t.cpu.halted) = true := by decide +kernel

/-- The vector TF10: BRK with BRK_MODE = interrupt pushes PC0 + 2 and status 0x31. -/
theorem test_brk_tf10 :
    (let s := pokes 0x0600 [0x00] (flagged { Flags.reset with c := true, i := false })
     leaves (step { s with params := { s.params with brkMode := .interrupt } }) fun t =>
       t.cpu.pc == 0xA000 && t.cpu.s == 0xFA && t.cpu.p.i && t.cpu.cycles == 7 &&
       readCell t.bus.ram 0x01FD == 0x06 && readCell t.bus.ram 0x01FC == 0x02 && readCell t.bus.ram 0x01FB == 0x31) =
      true := by decide +kernel

/-- The vector E5c: with DECIMAL_ENABLED = false the sum is binary and D stays. -/
theorem test_adc_e5c :
    (let s := pokes 0x0600 [0x69, 0x01] start
     let s := { s with
       params := { s.params with decimalEnabled := false }
       cpu := { s.cpu with a := 0x09, p := { s.cpu.p with d := true } } }
     leaves (step s) fun t => t.cpu.a == 0x0A && t.cpu.p.d && !t.cpu.p.c) = true := by decide +kernel

/-! ## Bus, PPU and cartridge (95_test_vectors TM1, TN1 to TN5, E7, TL2) -/

/-- The bytes that `n` reads of `a` give. -/
def readsOf (a : Word) : Nat → State → List Byte
  | 0, _ => []
  | n + 1, s => (busRead a s).val :: readsOf a n (busRead a s).st

/-- The writes of a list, first to last. -/
def writesOf : List (Word × Byte) → State → State
  | [], s => s
  | p :: rest, s => writesOf rest (busWrite p.1 p.2 s)

/-- The vector TM1: ten reads of each port after the strobe. -/
theorem test_controller_tm1 :
    (let s := writesOf [(0x4016, 1), (0x4016, 0)] (supplyButtons 0x91 0x02 start)
     readsOf 0x4016 10 s == [1, 0, 0, 0, 1, 0, 0, 1, 1, 1] &&
     readsOf 0x4017 10 s == [0, 1, 0, 0, 0, 0, 0, 0, 1, 1] &&
     readsOf 0x4016 3 (busWrite 0x4016 1 (supplyButtons 0x91 0x02 start)) == [1, 1, 1]) = true := by decide +kernel

/-- The vector TN1, steps 1 to 4. -/
theorem test_scroll_tn1 :
    (let s := writesOf [(0x2000, 0x03), (0x2005, 0x7D), (0x2005, 0x5E)] start
     let s4 := busWrite 0x2006 0x3D s
     s.ppu.t == 0x6D6F && s.ppu.x == 5 && !s.ppu.w && s4.ppu.t == 0x3D6F && s4.ppu.w && s4.ppu.v == 0) = true := by
  decide +kernel

/-- The vector TN1, steps 5 to 7: the status read clears `w`. -/
theorem test_address_tn1 :
    (let s := { start with ppu := { start.ppu with t := 0x3D6F, w := true } }
     let s := writesOf [(0x2006, 0x21), (0x2006, 0x08)] (busRead 0x2002 s).st
     s.ppu.v == 0x2108 && s.ppu.t == 0x2108 && !s.ppu.w) = true := by decide +kernel

/-- The vector TN2: the buffered data read. -/
theorem test_data_read_tn2 :
    readsOf 0x2007 4 (writesOf [(0x2006, 0x20), (0x2006, 0x00), (0x2007, 0x11), (0x2007, 0x22), (0x2007, 0x33),
      (0x2006, 0x20), (0x2006, 0x00)] start) = [0x00, 0x11, 0x22, 0x33] := by decide +kernel

/-- The vector TN3: palette reads are immediate, six bits wide, and aliased. -/
theorem test_palette_tn3 :
    (readsOf 0x2007 1 (writesOf [(0x3FFE, 0x3F), (0x2006, 0x10), (0x2007, 0x2A), (0x2006, 0x3F), (0x2006, 0x00)] start) ==
       [0x2A] &&
     readsOf 0x2007 1 (writesOf [(0x2006, 0x3F), (0x2006, 0x04), (0x2007, 0xFF), (0x2006, 0x3F), (0x2006, 0x14)] start) ==
       [0x3F]) = true := by decide +kernel

/-- The vector TN4: nametable mirroring, both arrangements. -/
theorem test_mirroring_tn4 :
    (let at' : List Word := [0x2000, 0x2400, 0x2800, 0x2C00, 0x3000, 0x3400]
     let vertical := { start with cart := { start.cart with mirroring := .vertical } }
     let s := ppuWrite 0x2400 0xA1 (ppuWrite 0x2000 0xA0 vertical)
     let t := ppuWrite 0x2800 0xA2 (ppuWrite 0x2400 0xA1 (ppuWrite 0x2000 0xA0 start))
     at'.map (ppuRead s.cart s.ppu) == [0xA0, 0xA1, 0xA0, 0xA1, 0xA0, 0xA1] &&
     at'.map (ppuRead t.cart t.ppu) == [0xA1, 0xA1, 0xA2, 0xA2, 0xA1, 0xA1]) = true := by decide +kernel

/-- The vector TN5: the OAM port wraps and a read does not advance. -/
theorem test_oam_tn5 :
    (let s := writesOf [(0x2003, 0xFE), (0x2004, 0x01), (0x2004, 0x02), (0x2004, 0x03)] start
     s.ppu.oam == [(0x00, 0x03), (0xFE, 0x01), (0xFF, 0x02)] && s.ppu.oamAddr == 0x01 &&
     (busRead 0x2004 s).st == s) = true := by decide +kernel

/-- The vector TN6: the dot that starts at (241, 1) sets vblank and, with the NMI enabled, requests it. -/
theorem test_vblank_tn6 :
    (let p := { start.ppu with scanline := 241, cycle := 1, ctrl := 0x80 }
     let q := ppuDot start.cart p
     q.vblank && q.nmiRequest && q.cycle == 2) = true := by decide +kernel

/-- A mapper 2 cartridge of four banks, bank k holding 0xB0 + k at its offset 0x0123 (as E7). -/
def banked : State :=
  { start with cart :=
    { start.cart with
      mapper := .banked, nPrg := 4, prg := [(0x0123, 0xB0), (0x4123, 0xB1), (0x8123, 0xB2), (0xC123, 0xB3)] } }

/-- The vector E7: bank writes switch 0x8000 to 0xBFFF only. -/
theorem test_banks_e7 :
    ([0, 1, 2, 3, 6].map (fun v => (busRead 0x8123 (busWrite 0x8000 v banked)).val) == [0xB0, 0xB1, 0xB2, 0xB3, 0xB2] &&
     [0, 1, 2, 3, 6].all (fun v => (busRead 0xC123 (busWrite 0xFFFF v banked)).val == 0xB3)) = true := by
  decide +kernel

/-- A 16-byte header with the given fields. -/
def headerBytes (prg chr f6 f7 : Byte) : List Byte :=
  [0x4E, 0x45, 0x53, 0x1A, prg, chr, f6, f7, 0, 0, 0, 0, 0, 0, 0, 0]

/-- What parsing an image answers, as the reason it is refused. -/
def refusedFor (image : List Byte) : Option LoadError :=
  match parseImage image with
  | .ok _ => none
  | .error e => some e

/-- The variants of TL2 that the header decides. -/
theorem test_load_errors_tl2 :
    (refusedFor ((headerBytes 1 0 0 0).take 15) == some .shortHeader &&
     refusedFor (0x4E :: 0x45 :: 0x53 :: 0x00 :: (headerBytes 1 0 0 0).drop 4) == some .badConstant &&
     refusedFor (headerBytes 0 0 0 0) == some .noProgram && refusedFor (headerBytes 1 0 0x10 0) == some .unknownMapper &&
     refusedFor (headerBytes 1 0 0 0x40) == some .unknownMapper && refusedFor (headerBytes 1 0 0x08 0) == some .fourScreen &&
     refusedFor (headerBytes 3 0 0 0) == some .tooMuchProgram && refusedFor (headerBytes 1 2 0 0) == some .tooMuchGraphics &&
     refusedFor (headerBytes 1 0 0 0) == some .shortImage) = true := by decide +kernel

/-! ## A program from reset, and the placement of an instruction -/

/-- `withFetchWord` places an instruction that the first step after reset runs: LDA #$42 (bytes A9 42). -/
theorem test_withFetchWord :
    leaves (step (State.reset.withFetchWord 16 0x42A9)) (fun t => t.cpu.a == 0x42 && t.cpu.pc == 2 && t.cpu.cycles == 2) =
      true := by decide +kernel

/-- The decoder reads that word as LDA #$42. -/
theorem test_decodeTableWord : decodeTableWord 16 0x42A9 = some (.ldaImm 0x42) := by decide +kernel

/-- The two bytes of TK19 at 0xFFFC: BNE wraps past 0xFFFF, and counts as a page cross. -/
theorem test_bne_wraps_tk19 :
    (let s := pokes 0xFFFC [0xD0, 0x03] { start with cpu := { start.cpu with pc := 0xFFFC } }
     leaves (step s) fun t => t.cpu.pc == 0x0001 && t.cpu.cycles == 4) = true := by decide +kernel

/-! ## WellFormed: there is no ill-formed term

Every term of `Instr` is an instruction (30_encoding rules R75, R79), so no check exists that a term could fail: the
extreme operand values pass, and what is refused is a byte string that is too short, by name. -/

theorem test_wellFormed_has_no_check :
    (Instr.wellFormed (.ldaImm 0x00) && Instr.wellFormed (.ldaImm 0xFF) && Instr.wellFormed (.jmpAbs 0xFFFF) &&
      Instr.wellFormed .jamImpF2) = true := by decide +kernel

theorem test_decode_refuses_nothing_by_name : decode [] = .error .noOpcode := rfl

theorem test_decode_refuses_a_missing_operand : decode [0xAD, 0x00] = .error .operandMissing := rfl

/-! ## Witnesses: for each statement with hypotheses, a state and operands that meet them all -/

theorem witness_DecodeOfEncodeIsTheInstruction : Instr.wellFormed (.jmpAbs 0xFFFF) = true := rfl

theorem witness_DecodeIsTotalAndOneToOne : decode [0xAD, 0x00, 0x02, 0x60] = .ok (.ldaAbs 0x0200, [0x60]) := rfl

theorem running_start : Running start := by
  refine ⟨?_, ?_, ?_, ?_⟩ <;> decide +kernel

theorem running_pokes (a : Word) (v : Byte) {s : State} (h : Running s) : Running (placeByte a v s) := by
  unfold placeByte
  split
  · exact h
  · split <;> exact h

/-- NOP, LDA #$42 and STA $0200 at 0x0600, one, two and three bytes. -/
def nopAt : State := pokes 0x0600 [0xEA] start
def ldaAt : State := pokes 0x0600 [0xA9, 0x42] start
def staAt : State := pokes 0x0600 [0x8D, 0x00, 0x02] start
/-- LDA #$42 whose opcode byte is the last of the address space and whose operand is at 0x0000. -/
def ldaWrap : State := pokes 0xFFFF [0xA9, 0x42] { start with cpu := { start.cpu with pc := 0xFFFF } }
/-- A JAM at 0x0600. -/
def jamAt : State := pokes 0x0600 [0x02] start

theorem witness_StepRunsTheFetchedInstruction_one :
    Running nopAt ∧ Fetches nopAt .nopImp (skip 1 nopAt) :=
  ⟨running_pokes _ _ running_start, .inl ⟨rfl, rfl⟩⟩

theorem witness_StepRunsTheFetchedInstruction_two :
    Running ldaAt ∧ Fetches ldaAt (.ldaImm 0x42) (skip 2 ldaAt) :=
  ⟨running_pokes _ _ (running_pokes _ _ running_start), .inr (.inl ⟨by decide +kernel, rfl, rfl⟩)⟩

theorem witness_StepRunsTheFetchedInstruction_three :
    Running staAt ∧ Fetches staAt (.staAbs 0x0200) (skip 3 staAt) :=
  ⟨running_pokes _ _ (running_pokes _ _ (running_pokes _ _ running_start)),
    .inr (.inr ⟨by decide +kernel, rfl, rfl⟩)⟩

theorem witness_StepRunsTheInstructionInMemory :
    Running ldaWrap ∧ (Instr.ldaImm 0x42).opcode ∉ haltOpcodes ∧ ldaWrap.cpu.pc = 0xFFFF ∧
      BytesAt ldaWrap.cpu.pc (encode (.ldaImm 0x42)) ldaWrap :=
  ⟨⟨by decide +kernel, by decide +kernel, by decide +kernel, by decide +kernel⟩, by decide +kernel, by decide +kernel,
    by decide +kernel, by decide +kernel, trivial⟩

theorem witness_HaltedMachineNeverChanges :
    ({ start with cpu := { start.cpu with halted := true, haltCause := some (.brk 0x0600) } } : State).cpu.halted =
      true := rfl

theorem witness_HaltLeavesTheStateUntouched :
    (Running jamAt ∧ (busRead jamAt.cpu.pc jamAt).val = 0x02) ∧
    (Running start ∧ (busRead start.cpu.pc start).val = 0x00 ∧ start.params.brkMode = .halt) :=
  ⟨⟨running_pokes _ _ running_start, by decide +kernel⟩, running_start, by decide +kernel, by decide +kernel⟩

theorem witness_InterruptEntryPushesAndVectors :
    VectorHolds vecNmi 0x9000 withVectors ∧ VectorHolds vecReset 0x8000 withVectors ∧
      VectorHolds vecIrq 0xA000 withVectors := by
  refine ⟨⟨?_, ?_⟩, ⟨?_, ?_⟩, ?_, ?_⟩ <;> decide +kernel

theorem witness_NmiIsTakenBeforeAnythingElse :
    withVectors.cpu.halted = false ∧ VectorHolds 0xFFFA 0x9000 withVectors ∧
    ({ withVectors with ppu := { withVectors.ppu with nmiRequest := true } } : State).ppu.nmiRequest = true ∧
    ({ withVectors with cpu := { withVectors.cpu with nmiPending := true } } : State).cpu.nmiPending = true := by
  refine ⟨?_, ⟨?_, ?_⟩, ?_, ?_⟩ <;> decide +kernel

theorem witness_IrqIsTakenWhenUnmasked :
    (let s := { flagged { Flags.reset with i := false } with irqLine := true }
     s.cpu.halted = false ∧ s.cpu.nmiPending = false ∧ s.ppu.nmiRequest = false ∧ s.irqLine = true ∧
       s.cpu.p.i = false ∧ VectorHolds 0xFFFE 0xA000 s) ∧
    (let s := { withVectors with irqLine := true }
     s.cpu.halted = false ∧ s.cpu.nmiPending = false ∧ s.ppu.nmiRequest = false ∧ s.irqLine = true ∧
       s.cpu.p.i = true ∧ ∃ o, step { s with irqLine := false } = .next o) := by
  refine ⟨⟨?_, ?_, ?_, ?_, ?_, ?_, ?_⟩, ?_, ?_, ?_, ?_, ?_, _, rfl⟩ <;> decide +kernel

theorem witness_RtiResumesWhereTheInterruptCame :
    Store.wf withVectors.bus.ram = true ∧ VectorHolds vecNmi 0x9000 withVectors ∧
      VectorHolds vecIrq 0xA000 withVectors := by
  refine ⟨?_, ⟨?_, ?_⟩, ?_, ?_⟩ <;> decide +kernel

/-- The stack pointer at 0x00, from which a push wraps to 0xFF. -/
theorem witness_StackWrapsInsidePageOne :
    ({ withVectors with cpu := { withVectors.cpu with s := 0x00 } } : State).cpu.s = 0x00 ∧
      Store.wf withVectors.bus.ram = true := by
  refine ⟨?_, ?_⟩ <;> decide +kernel

theorem witness_BreakAndReturnFromInterrupt :
    start.params.brkMode = .halt ∧
    (let s := { withVectors with params := { withVectors.params with brkMode := .interrupt } }
     s.params.brkMode = .interrupt ∧ VectorHolds 0xFFFE 0xA000 s) := by
  refine ⟨?_, ?_, ?_, ?_⟩ <;> decide +kernel

/-- Both operands 0x99, the largest decimal number. -/
theorem witness_DecimalArithmeticIsDecimal :
    (let c : Cpu := { Cpu.reset 0x0600 with a := 0x99, p := { Flags.reset with d := true, c := true } }
     let m : Byte := 0x99
     c.a.toNat / 16 ≤ 9 ∧ c.a.toNat % 16 ≤ 9 ∧ m.toNat / 16 ≤ 9 ∧ m.toNat % 16 ≤ 9 ∧ c.p.d = true) := by decide +kernel

theorem witness_OverflowIsSignedOverflow :
    ((Cpu.reset 0x0600).p.d && true) = false ∧
    (let c : Cpu := { Cpu.reset 0x0600 with p := { Flags.reset with d := true } }
     (c.p.d && true) = true ∧ (c.p.d && false) = false) := by decide

theorem witness_RtsReturnsAfterJsr :
    Store.wf start.bus.ram = true ∧ ∃ t, exec (.jsrAbs 0x1234) start = .next t := ⟨rfl, _, rfl⟩

theorem witness_CostIsTheTableEntry : ∃ t, exec (.ldaAbx 0x02FF) start = .next t := ⟨_, rfl⟩

/-- STA writes no flag and no register. -/
theorem witness_FlagsChangeOnlyInTheirWriters :
    (∃ t, exec (.staAbs 0x0200) start = .next t) ∧ (Instr.staAbs 0x0200).op = .sta ∧ (Instr.brkImp).op = .brk ∧
      start.params.brkMode = .halt := ⟨⟨_, rfl⟩, rfl, rfl, rfl⟩

theorem witness_RegistersChangeOnlyInTheirWriters :
    (∃ t, exec (.staAbs 0x0200) start = .next t) ∧ (Instr.staAbs 0x0200).op = .sta := ⟨⟨_, rfl⟩, rfl⟩

/-- STA $07FF disturbs 0x07FF and its repeat at 0x1FFF, and not 0x0000 nor 0x8000. -/
theorem witness_MemoryChangesOnlyWhereStored :
    (∃ t, exec (.staAbs 0x07FF) start = .next t) ∧ storedAddresses (.staAbs 0x07FF) start = [0x07FF] ∧
    disturbs 0x07FF 0x1FFF start = true ∧ disturbs 0x07FF 0x0000 start = false ∧ disturbs 0x07FF 0x8000 start = false ∧
    disturbs 0x8000 0xBFFF banked = true ∧ disturbs 0x8000 0xC000 banked = false := by
  refine ⟨⟨_, rfl⟩, ?_, ?_, ?_, ?_, ?_, ?_⟩ <;> decide +kernel

theorem witness_StepKeepsTheSession : ∃ t, step ldaAt = .next t := ⟨_, rfl⟩

/-- A state that is not the reset state meets the invariant, and a step from it answers. -/
theorem witness_StepKeepsTheInvariant : start.Inv ∧ ∃ t, step start = .next t :=
  ⟨⟨⟨rfl, by simp [start, State.reset, Bus.reset]⟩,
    ⟨⟨rfl, by simp [start, State.reset, Ppu.reset]⟩, ⟨rfl, by simp [start, State.reset, Ppu.reset]⟩,
      ⟨rfl, by simp [start, State.reset, Ppu.reset]⟩, ⟨rfl, by simp [start, State.reset, Ppu.reset]⟩,
      by decide +kernel, by decide +kernel, by decide +kernel, by decide +kernel⟩,
    ⟨by decide +kernel, fun _ => by decide +kernel, ⟨rfl, by simp [start, State.reset, Cartridge.blank]⟩,
      ⟨rfl, by simp [start, State.reset, Cartridge.blank]⟩⟩,
    ⟨rfl, by simp [start, State.reset]⟩, rfl, rfl⟩, _, rfl⟩

theorem witness_RamReadsBackWhatWasWritten :
    Store.wf start.bus.ram = true ∧ (0x0000 : Word).toNat < 0x2000 ∧ (0x1FFF : Word).toNat < 0x2000 := by decide +kernel

/-- The first and the last address of each range. -/
theorem witness_BusRoutesEachAddressToOneDevice :
    (0x2000 ≤ (0x2000 : Word).toNat ∧ (0x3FFF : Word).toNat < 0x4000) ∧
    (0x4000 ≤ (0x4000 : Word).toNat ∧ (0x7FFF : Word).toNat < 0x8000 ∧ (0x4015 : Word) ≠ 0x4016 ∧
      (0x4018 : Word) ≠ 0x4017) ∧
    (0x8000 ≤ (0x8000 : Word).toNat ∧ 0x8000 ≤ (0xFFFF : Word).toNat) := by decide +kernel

theorem witness_ControllerShiftsOutTheSnapshot :
    (0x01 : Byte).getLsbD 0 = true ∧ (0xFE : Byte).getLsbD 0 = false := by decide

/-- Each of the eight offsets, at the first and the last address of the window that has it. -/
theorem witness_PpuStatusControlMaskOamPorts :
    [0, 1, 2, 3, 4, 5, 6, 7].all (fun k : Nat =>
      let first := (0x2000 + BitVec.ofNat 16 k : Word).toNat
      let last := (0x3FF8 + BitVec.ofNat 16 k : Word).toNat
      decide (0x2000 ≤ first ∧ first < 0x4000 ∧ first % 8 = k ∧ 0x2000 ≤ last ∧ last < 0x4000 ∧ last % 8 = k)) = true := by
  decide +kernel

theorem witness_ScrollAndAddressTwoWriteProtocol :
    ((0x2005 : Word).toNat % 8 = 5 ∧ (0x3FFD : Word).toNat % 8 = 5 ∧ (0x2006 : Word).toNat % 8 = 6 ∧
      (0x3FFE : Word).toNat % 8 = 6) ∧
    start.ppu.w = false ∧ ({ start with ppu := { start.ppu with w := true } } : State).ppu.w = true := by decide +kernel

/-- The last address below the palette and the first in it. -/
theorem witness_DataPortReadsThroughItsBuffer :
    ((0x2007 : Word).toNat % 8 = 7 ∧ (0x3FFF : Word).toNat % 8 = 7) ∧
    (let s := { start with ppu := { start.ppu with v := 0x3EFF } }
     (BitVec.ofNat 16 (s.ppu.v.toNat % 0x4000)).toNat < 0x3F00) ∧
    (let s := { start with ppu := { start.ppu with v := 0x3F00 } }
     0x3F00 ≤ (BitVec.ofNat 16 (s.ppu.v.toNat % 0x4000)).toNat) := by decide +kernel

theorem witness_PpuSpaceMirrorsAndAliases :
    (Store.wf start.ppu.vram = true ∧ Store.wf start.ppu.palette = true ∧ Store.wf start.cart.chr = true) ∧
    ((0x2000 : Word).toNat < 0x3F00 ∧ (0x3EFF : Word).toNat < 0x3F00 ∧ vramByte .vertical 0x2000 = vramByte .vertical 0x2800) ∧
    (0x3F00 ≤ (0x3F00 : Word).toNat ∧ (0x3FFF : Word).toNat < 0x4000 ∧ paletteByte 0x3F10 = paletteByte 0x3F00 ∧
      paletteByte 0x3F11 ≠ paletteByte 0x3F01) ∧
    (0x1FFF : Word).toNat < 0x2000 := by decide +kernel

/-- The PPU of the standard start at a dot. -/
def ppuAt (scanline cycle : Nat) : Ppu := { start.ppu with scanline := scanline, cycle := cycle }

theorem witness_FlagEventsOfADot :
    ((ppuAt 241 1).scanline = 241 ∧ (ppuAt 241 1).cycle = 1) ∧ ((ppuAt 0 1).scanline = 0 ∧ (ppuAt 0 1).cycle = 1) ∧
    ((ppuAt 261 1).scanline = 261 ∧ (ppuAt 261 1).cycle = 1) ∧
    ((ppuAt 261 340).scanline = 261 ∧ (ppuAt 261 340).cycle = 340) := by decide +kernel

theorem witness_FrameCadence :
    (ppuAt 261 340).scanline < 262 ∧ (ppuAt 261 340).cycle < 341 ∧ (ppuAt 261 340).frameReady = false := by decide +kernel

/-- The first and the last visible dot, and the dots beside them. -/
theorem witness_EachVisibleDotWritesItsPixel :
    ((ppuAt 0 1).scanline ≤ 239 ∧ 1 ≤ (ppuAt 0 1).cycle) ∧ ((ppuAt 239 256).scanline ≤ 239 ∧ (ppuAt 239 256).cycle ≤ 256) ∧
    ¬1 ≤ (ppuAt 0 0).cycle ∧ ¬(ppuAt 239 257).cycle ≤ 256 ∧ ¬(ppuAt 240 1).scanline ≤ 239 ∧
    ((ppuAt 0 1).mask.getLsbD 3 = false ∧ (ppuAt 0 1).mask.getLsbD 4 = false) ∧
    ((ppuAt 261 1).scanline = 261 ∧ (ppuAt 261 1).cycle = 1) := by decide +kernel

/-- A line with an opaque background of palette 3 at fine scroll 2 and sprite zero over all columns from `spriteX`,
its attribute byte `attr`; palette entry n is n. -/
def layered (attr spriteX : Byte) (cycle : Nat) (mask : Byte) : Ppu :=
  { ppuAt 20 cycle with
    mask := mask, x := 2
    palette := (List.range 31).map (fun n => (n + 1, BitVec.ofNat 6 (n + 1)))
    bg := { start.ppu.bg with patLo := 0xFFFF, attLo := 0xFFFF, attHi := 0xFFFF }
    lineSprites := [{ x := spriteX, attr := attr, lo := 0x00, hi := 0xFF, isZero := true }] }

/-- The frame entry of the dot and the hit flag after it. -/
def shows (p : Ppu) : Nat × Bool :=
  let q := ppuDot Cartridge.blank p
  ((readCell q.frame (p.scanline * 256 + p.cycle - 1)).toNat, q.sprite0Hit)

/-- Rules R365 to R368 by hand: the background is entry 13, the sprite (palette 4 + 1, value 2) entry 22. Front, behind,
background hidden, sprites hidden, column 255 without a hit, columns 7 and 8 with both left-edge bits clear, greyscale. -/
theorem test_pixel_priority_and_hit :
    shows (layered 0x01 100 101 0x1E) = (22, true) ∧ shows (layered 0x21 100 101 0x1E) = (13, true) ∧
    shows (layered 0x01 100 101 0x14) = (22, false) ∧ shows (layered 0x01 100 101 0x0A) = (13, false) ∧
    shows (layered 0x01 248 256 0x1E) = (22, false) ∧
    shows (layered 0x01 4 8 0x18) = (0, false) ∧ shows (layered 0x01 4 9 0x18) = (22, true) ∧
    shows (layered 0x01 100 101 0x1F) = (16, true) := by decide +kernel

/-- Rendering on, the last line that evaluates, and sprite 63 the only one in range. -/
theorem witness_SpriteEvaluationPicksTheFirstEight :
    (let p : Ppu := { ppuAt 239 257 with mask := 0x08, oam := [(252, 239)] }
     p.mask.getLsbD 3 = true ∧ p.scanline ≤ 239 ∧ p.cycle = 257 ∧ (readCell p.oam (4 * 63)).toNat ≤ p.scanline ∧
     (List.range 63).countP (fun n => decide ((readCell p.oam (4 * n)).toNat ≤ p.scanline ∧
       p.scanline - (readCell p.oam (4 * n)).toNat < 8)) < 8) := by decide +kernel

theorem witness_ProgramDataMappingAndBanks :
    (start.cart.mapper = .fixed ∧ banked.cart.mapper = .banked) ∧
    (0x8000 ≤ (0x8000 : Word).toNat ∧ (0xBFFF : Word).toNat < 0xC000 ∧ ¬(0xC000 : Word).toNat < 0xC000 ∧
      0x8000 ≤ (0xFFFF : Word).toNat ∧ (0x7FFF : Word).toNat < 0x8000) := by decide +kernel

/-- An image with one program bank, graphics RAM and mapper 0 loads when the bank is all there (TL2). -/
theorem loads (body : List Byte) (h : 16384 ≤ body.length) : ∃ c, parseImage (headerBytes 1 0 0 0 ++ body) = .ok c := by
  have hl : (headerBytes 1 0 0 0 ++ body).length = body.length + 16 := by
    rw [List.length_append, Nat.add_comm]
    rfl
  have hh : header (headerBytes 1 0 0 0 ++ body) =
      { constant := [0x4E, 0x45, 0x53, 0x1A], nPrg := 1, nChr := 0, flags6 := 0, flags7 := 0 } := rfl
  cases e : parseImage (headerBytes 1 0 0 0 ++ body) with
  | ok c => exact ⟨c, rfl⟩
  | error r =>
    exfalso
    unfold parseImage at e
    rw [hl, hh] at e
    have h1 : ¬body.length + 16 < 16 := by omega
    have h2 : ¬body.length + 16 < 16400 := by omega
    simp [h1, mapperOf, Header.mapperId, Header.chrOffset, Header.prgOffset, prgUnit] at e
    rw [if_neg h2] at e
    cases e

/-- A valid image: its program bank is zeros. -/
@[irreducible] def image (n : Nat) : List Byte := headerBytes 1 0 0 0 ++ List.replicate n 0

theorem image_loads : ∃ c, parseImage (image 16384) = .ok c := by
  unfold image
  exact loads _ (by rw [List.length_replicate])

theorem witness_ImagesAreRefusedExactlyAsListed :
    (∃ e, parseImage [] = .error e) ∧ ∃ c, parseImage (image 16384) = .ok c := ⟨⟨_, rfl⟩, image_loads⟩

theorem session_of_cartridge (params : Params) {bytes : List Byte} {c : Cartridge} (h : parseImage bytes = .ok c) :
    createSession params bytes = .ok (resetCpu (platform params c)) := by
  unfold createSession
  rw [h]

theorem witness_ImageFieldsReachTheCartridge :
    ∃ c s, parseImage (image 16384) = .ok c ∧ createSession start.params (image 16384) = .ok s := by
  obtain ⟨c, h⟩ := image_loads
  exact ⟨c, _, h, session_of_cartridge _ h⟩

theorem witness_SessionStartsAtTheResetVector : ∃ c, parseImage (image 16384) = .ok c := image_loads

/-- A step that starts at the last dot of a frame, and one that does not. -/
theorem witness_DotsFollowTheCycleCount :
    (let s := { nopAt with ppu := ppuAt 261 340 }
     s.ppu.scanline < 262 ∧ s.ppu.cycle < 341 ∧ s.ppu.frameReady = false ∧
       leaves (step s) (fun t => !t.cpu.halted && t.framesReturned == 1) = true) ∧
    leaves (step nopAt) (fun t => !t.cpu.halted && t.framesReturned == 0) = true := by decide +kernel

/-- Column 31, fine row 7 with coarse rows 29, 30 and 31. -/
theorem witness_ScrollIncrementsWrapAsCounters :
    (0x001F : BitVec 15).toNat % 32 = 31 ∧ (0x6000 : BitVec 15).toNat / 4096 < 7 ∧ (0x73A0 : BitVec 15).toNat / 32 % 32 = 29 ∧
    (0x73C0 : BitVec 15).toNat / 32 % 32 = 30 ∧ (0x73E0 : BitVec 15).toNat / 32 % 32 = 31 ∧
    (0x73E0 : BitVec 15).toNat / 4096 = 7 := by decide +kernel

end Sys2Proof.Tests
end

section
/-! PROOFS. The statements about the machine's own state (10_state): what a step keeps of the session, the status byte,
overflow, what an instruction can change in the CPU, and the reset values. -/

namespace Sys2Proof.Machine

/-! ## The session's constants (10_state rule R25): what no step changes -/

theorem SameSession.refl (s : State) : SameSession s s :=
  ⟨rfl, rfl, rfl, rfl, rfl, rfl, fun _ => rfl, rfl, rfl, rfl⟩

theorem SameSession.trans {s t u : State} (h : SameSession s t) (h' : SameSession t u) : SameSession s u where
  params := h'.params.trans h.params
  prg := h'.prg.trans h.prg
  nPrg := h'.nPrg.trans h.nPrg
  mapper := h'.mapper.trans h.mapper
  mirroring := h'.mirroring.trans h.mirroring
  chrIsRam := h'.chrIsRam.trans h.chrIsRam
  rom hr := (h'.rom (h.chrIsRam.trans hr)).trans (h.rom hr)
  buttons1 := h'.buttons1.trans h.buttons1
  buttons2 := h'.buttons2.trans h.buttons2
  irqLine := h'.irqLine.trans h.irqLine

/-- Graphics ROM takes no write (52_cartridge_sync rule R406). -/
theorem cartPpuWrite_of_rom {c : Cartridge} (h : c.chrIsRam = false) (a : Word) (d : Byte) :
    cartPpuWrite c a d = c := by
  simp [cartPpuWrite, h]

theorem dataWrite_cart_of_rom {s : State} (h : s.cart.chrIsRam = false) (d : Byte) :
    (dataWrite d s).cart = s.cart := by
  unfold dataWrite
  rcases ppuWrite_eq (dataAddress s.ppu) d s with ⟨-, e⟩ | ⟨p, e⟩
  · simp only [e, cartPpuWrite_of_rom h]
  · simp only [e]

theorem ppuRegWrite_cart_of_rom {s : State} (h : s.cart.chrIsRam = false) (a : Word) (v : Byte) :
    (ppuRegWrite a v s).cart = s.cart := by
  unfold ppuRegWrite
  iterate 7 (split; · rfl)
  exact dataWrite_cart_of_rom h v

/-- No bus write changes graphics data that are ROM. -/
theorem busWrite_chr_of_rom {s : State} (h : s.cart.chrIsRam = false) (a : Word) (v : Byte) :
    (busWrite a v s).cart.chr = s.cart.chr := by
  unfold busWrite
  split
  · rfl
  split
  · rw [ppuRegWrite_cart_of_rom h]
  split
  · rfl
  split
  · rfl
  · unfold cartCpuWrite
    split
    · rfl
    · split <;> rfl

theorem busRead_sameSession (a : Word) (s : State) : SameSession s (busRead a s).st := by
  obtain ⟨_, _, _, _, e⟩ := busRead_st a s
  rw [e]
  constructor <;> intros <;> rfl

theorem busWrite_sameSession (a : Word) (v : Byte) (s : State) : SameSession s (busWrite a v s) := by
  have hrom : s.cart.chrIsRam = false → (busWrite a v s).cart.chr = s.cart.chr := fun h => busWrite_chr_of_rom h a v
  obtain ⟨_, _, _, _, _, _, _, e⟩ := busWrite_st a v s
  rw [e] at hrom ⊢
  exact ⟨rfl, rfl, rfl, rfl, rfl, rfl, hrom, rfl, rfl, rfl⟩

/-- Bus accesses and changes of the CPU keep the session. -/
theorem Touched.sameSession {s t : State} (h : Touched s t) : SameSession s t := by
  induction h with
  | refl => exact .refl s
  | cpu t c _ ih => exact ih.trans (by constructor <;> intros <;> rfl)
  | read t a _ ih => exact ih.trans (busRead_sameSession a t)
  | write t a v _ ih => exact ih.trans (busWrite_sameSession a v t)

theorem deliverFrame_sameSession (s : State) : SameSession s (deliverFrame s) := by
  unfold deliverFrame
  split
  · constructor <;> intros <;> rfl
  · exact .refl s

/-- The dots and the delivery of a frame keep the session. -/
theorem afterCpu_sameSession (n : Nat) (s : State) : SameSession s (afterCpu n s) := by
  unfold afterCpu
  split
  · exact .refl s
  · have hdots : SameSession s (runDots (ppuPerCpu * (s.cpu.cycles - n)) s) := by constructor <;> intros <;> rfl
    exact hdots.trans (deliverFrame_sameSession _)

theorem clearNmiRequest_sameSession (s : State) : SameSession s (clearNmiRequest s) := by
  constructor <;> intros <;> rfl

/-- Settles O40: a step is a halt, or the CPU's bus accesses and register changes between the hand-over of the NMI
request and the dots, and each of these keeps the session. -/
theorem stepKeepsTheSession : Obligations.StepKeepsTheSession := by
  intro s t h
  rcases step_parts h with ⟨-, rfl⟩ | ⟨u, hu, rfl⟩
  · exact .refl t
  · exact (clearNmiRequest_sameSession s).trans ((cpuStep_touched hu).sameSession.trans (afterCpu_sameSession _ u))

/-! ## The status byte (10_state rules R17, R18) -/

/-- The packed number is a byte, and each flag is a binary digit of it. -/
theorem packed_digits (p : Flags) (b : Bool) :
    packed p b < 256 ∧ packed p b / 128 % 2 = p.n.toNat ∧ packed p b / 64 % 2 = p.v.toNat ∧
    packed p b / 8 % 2 = p.d.toNat ∧ packed p b / 4 % 2 = p.i.toNat ∧ packed p b / 2 % 2 = p.z.toNat ∧
    packed p b % 2 = p.c.toNat := by
  have h : ∀ f : Bool, f.toNat ≤ 1 := Bool.toNat_le
  have := h p.n; have := h p.v; have := h b; have := h p.d; have := h p.i; have := h p.z; have := h p.c
  unfold packed
  omega

theorem pack_toNat (p : Flags) (b : Bool) : (pack p b).toNat = packed p b := by
  obtain ⟨hlt, -⟩ := packed_digits p b
  rw [pack_eq_packed, BitVec.toNat_ofNat, Nat.mod_eq_of_lt hlt]

/-- Unpacking reads back the digit each flag was packed as, and leaves `B` (10_state rule R18). -/
theorem unpack_pack (p : Flags) (b : Bool) : unpack (pack p b) p = p := by
  obtain ⟨-, hn, hv, hd, hi, hz, hc⟩ := packed_digits p b
  rw [unpack_eq_unpacked]
  simp [unpacked, pack_toNat, hn, hv, hd, hi, hz, hc]

/-- Settles O13: the byte digit by digit, and each instruction from what its push or pull leaves. -/
theorem statusByteAndStackInstructions : Obligations.StatusByteAndStackInstructions := by
  refine ⟨pack_toNat, unpack_eq_unpacked, unpack_pack, ?_, ?_, ?_, ?_⟩
  · exact ⟨rfl, Laws.RoundTrip.phaImp, exec_pha⟩
  · refine ⟨rfl, Laws.RoundTrip.phpImp, fun s => ?_⟩
    rw [exec_php, pack_eq_packed]
  · refine ⟨rfl, Laws.RoundTrip.plaImp, fun s => ?_⟩
    rw [exec_pla, loadA_eq_gotA]
  · refine ⟨rfl, Laws.RoundTrip.plpImp, fun s => ?_⟩
    simp only [exec_plp, unpack_eq_unpacked]

/-! ## Overflow (10_state rule R13, 43_logic_arith rules R158 and R160) -/

/-- Two's complement: the sign bit weighs 256 less than the number above it. -/
theorem toInt_eq_sub_sign (v : Byte) : v.toInt = (v.toNat : Int) - 256 * (v.toNat / 128 : Nat) := by
  have := v.isLt
  rw [BitVec.toInt_eq_toNat_cond]
  split <;> omega

/-- The operands' signs agree and the sum's differs exactly when the signed sum does not fit a byte. -/
theorem addBinary_overflow (m : Byte) (c : Cpu) :
    (addBinary m c).p.v = true ↔
      c.a.toInt + m.toInt + c.p.c.toNat < -128 ∨ 127 < c.a.toInt + m.toInt + c.p.c.toNat := by
  have ha := c.a.isLt
  have hm := m.isLt
  have hc := Bool.toNat_le c.p.c
  rw [addBinary_eq_addedBinary, toInt_eq_sub_sign, toInt_eq_sub_sign]
  simp only [addedBinary, signFlips, Bool.and_eq_true, decide_eq_true_eq]
  omega

/-- The operands' signs differ and the difference's is not the accumulator's exactly when the signed difference does not
fit a byte; the mode does not matter, since the flags come from the binary difference. -/
theorem subCore_overflow (dec : Bool) (m : Byte) (c : Cpu) :
    (subCore dec m c).p.v = true ↔
      c.a.toInt - m.toInt - (1 - c.p.c.toNat) < -128 ∨ 127 < c.a.toInt - m.toInt - (1 - c.p.c.toNat) := by
  have ha := c.a.isLt
  have hm := m.isLt
  have hc := Bool.toNat_le c.p.c
  have hborrow : (if c.p.c then (0 : Int) else 1) = 1 - c.p.c.toNat := by cases c.p.c <;> rfl
  have hr : (BitVec.ofInt 8 (difference c.a m c.p.c)).toNat = (difference c.a m c.p.c % 256).toNat :=
    BitVec.toNat_ofInt _
  rw [show subCore dec = subtracted ⟨dec, .halt⟩ from subCore_eq_subtracted ⟨dec, .halt⟩, toInt_eq_sub_sign,
    toInt_eq_sub_sign]
  simp only [subtracted, Bool.and_eq_true, decide_eq_true_eq, hr]
  simp only [difference, hborrow]
  omega

/-- Settles O22: both overflow bits are signed overflow, and an addition with `D` clear is the binary one. -/
theorem overflowIsSignedOverflow : Obligations.OverflowIsSignedOverflow := by
  intro dec c m
  refine ⟨fun hd => ?_, subCore_overflow dec m c⟩
  have hbinary : addCore dec m c = addBinary m c := by simp only [addCore, hd, Bool.false_eq_true, if_false]
  rw [hbinary]
  exact addBinary_overflow m c

/-! ## The frame of an instruction in the CPU (10_state rules R10 to R15) -/

/-- `c` with the destinations of operation `o` and the cycle count taken from `x`: all of the CPU that `o` writes
(10_state rules R10 to R14). BRK writes `I` as the software interrupt only. -/
def destinationsFrom (o : Op) (mode : BrkMode) (c x : Cpu) : Cpu :=
  match o with
  | .nop | .sta | .stx | .sty | .sax => { c with cycles := x.cycles }
  | .lda | .txa | .tya | .and_ | .ora | .eor =>
    { c with a := x.a, p := { c.p with z := x.p.z, n := x.p.n }, cycles := x.cycles }
  | .ldx | .tax | .tsx | .inx | .dex =>
    { c with x := x.x, p := { c.p with z := x.p.z, n := x.p.n }, cycles := x.cycles }
  | .ldy | .tay | .iny | .dey =>
    { c with y := x.y, p := { c.p with z := x.p.z, n := x.p.n }, cycles := x.cycles }
  | .lax => { c with a := x.a, x := x.x, p := { c.p with z := x.p.z, n := x.p.n }, cycles := x.cycles }
  | .las => { c with a := x.a, x := x.x, s := x.s, p := { c.p with z := x.p.z, n := x.p.n }, cycles := x.cycles }
  | .inc | .dec => { c with p := { c.p with z := x.p.z, n := x.p.n }, cycles := x.cycles }
  | .cmp | .cpx | .cpy | .dcp =>
    { c with p := { c.p with c := x.p.c, z := x.p.z, n := x.p.n }, cycles := x.cycles }
  | .axs => { c with x := x.x, p := { c.p with c := x.p.c, z := x.p.z, n := x.p.n }, cycles := x.cycles }
  | .asl | .lsr | .rol | .ror | .slo | .rla | .sre | .anc | .alr =>
    { c with a := x.a, p := { c.p with c := x.p.c, z := x.p.z, n := x.p.n }, cycles := x.cycles }
  | .adc | .sbc | .rra | .isc | .arr =>
    { c with a := x.a, p := { c.p with c := x.p.c, z := x.p.z, v := x.p.v, n := x.p.n }, cycles := x.cycles }
  | .bit => { c with p := { c.p with z := x.p.z, v := x.p.v, n := x.p.n }, cycles := x.cycles }
  | .clc | .sec => { c with p := { c.p with c := x.p.c }, cycles := x.cycles }
  | .cli | .sei => { c with p := { c.p with i := x.p.i }, cycles := x.cycles }
  | .cld | .sed => { c with p := { c.p with d := x.p.d }, cycles := x.cycles }
  | .clv => { c with p := { c.p with v := x.p.v }, cycles := x.cycles }
  | .txs | .pha | .php => { c with s := x.s, cycles := x.cycles }
  | .pla => { c with a := x.a, s := x.s, p := { c.p with z := x.p.z, n := x.p.n }, cycles := x.cycles }
  | .plp => { c with s := x.s, p := { x.p with b := c.p.b }, cycles := x.cycles }
  | .rti => { c with s := x.s, pc := x.pc, p := { x.p with b := c.p.b }, cycles := x.cycles }
  | .jmp | .bcc | .bcs | .beq | .bne | .bmi | .bpl | .bvc | .bvs => { c with pc := x.pc, cycles := x.cycles }
  | .jsr | .rts => { c with s := x.s, pc := x.pc, cycles := x.cycles }
  | .brk =>
    { c with
      s := x.s, pc := x.pc, halted := x.halted, haltCause := x.haltCause, cycles := x.cycles
      p := { c.p with i := match mode with
                           | .halt => c.p.i
                           | .interrupt => x.p.i } }
  | .jam | .xaa | .lxa | .sha | .shy | .shx | .tas =>
    { c with pc := x.pc, halted := x.halted, haltCause := x.haltCause, cycles := x.cycles }

/-- `x` differs from `c` at most in the destinations of `o` and the cycle count. -/
def ChangesOnly (o : Op) (mode : BrkMode) (c x : Cpu) : Prop := x = destinationsFrom o mode c x

/-! ### By access class: the change of the CPU is the operation's own -/

section ByClass

variable {o : Op} {mode : BrkMode} {s t : State}

theorem readInstr_changesOnly {base : Nat} {penalty : Bool} {src : Source} (f : Byte → Cpu → Cpu)
    (h : readInstr base penalty src f s = .next t) (hf : ∀ m k, ChangesOnly o mode s.cpu (spent k (f m s.cpu))) :
    ChangesOnly o mode s.cpu t.cpu := by
  rw [readInstr_eq] at h
  cases h
  exact hf _ _

theorem writeInstr_changesOnly {base : Nat} {m : MemMode} {v : Byte} (h : writeInstr base m v s = .next t)
    (hf : ∀ k, ChangesOnly o mode s.cpu (spent k s.cpu)) : ChangesOnly o mode s.cpu t.cpu := by
  rw [writeInstr_eq] at h
  cases h
  exact hf _

theorem modifyInstr_changesOnly {base : Nat} {mm : MemMode} (f : Byte → Cpu → Byte) (g : Byte → Byte → Cpu → Cpu)
    (h : modifyInstr base mm f g s = .next t)
    (hg : ∀ m n k, ChangesOnly o mode s.cpu (spent k (g m n s.cpu))) : ChangesOnly o mode s.cpu t.cpu := by
  rw [modifyInstr_eq] at h
  cases h
  exact hg _ _ _

theorem cpuInstr_changesOnly {base : Nat} {f : Cpu → Cpu} (h : cpuInstr base f s = .next t)
    (hf : ∀ k, ChangesOnly o mode s.cpu (spent k (f s.cpu))) : ChangesOnly o mode s.cpu t.cpu := by
  cases h
  exact hf _

theorem branch_changesOnly {cond : Bool} {d : Byte} (h : branch cond d s = .next t)
    (hf : ∀ w k, ChangesOnly o mode s.cpu (spent k (setPc w s.cpu)))
    (hn : ∀ k, ChangesOnly o mode s.cpu (spent k s.cpu)) : ChangesOnly o mode s.cpu t.cpu := by
  unfold branch at h
  cases cond
  · cases h
    exact hn _
  · cases h
    exact hf _ _

theorem haltIllegal_changesOnly {opcode : Byte} (h : haltIllegal opcode s = .next t)
    (hf : ∀ pc0 cause, ChangesOnly o mode s.cpu (stopped pc0 cause s.cpu)) : ChangesOnly o mode s.cpu t.cpu := by
  cases h
  exact hf _ _

end ByClass

@[simp] theorem readPair_cpu (lo hi : Word) (s : State) : (readPair lo hi s).st.cpu = s.cpu := by simp [readPair]

theorem jmpInd_changesOnly {n : Word} {mode : BrkMode} {s t : State} (h : exec (.jmpInd n) s = .next t) :
    ChangesOnly .jmp mode s.cpu t.cpu := by
  rw [exec_jmpInd] at h
  cases h
  simp only [charge_cpu, mapCpu_cpu, indirectTarget, readPair_cpu]
  rfl

theorem brk_changesOnly {s t : State} (h : brk s = .next t) : ChangesOnly .brk s.params.brkMode s.cpu t.cpu := by
  unfold brk at h
  cases hm : s.params.brkMode with
  | halt =>
    rw [hm] at h
    cases h
    rfl
  | interrupt =>
    rw [hm] at h
    simp only [brkInterrupt, interruptEntry_eq] at h
    cases h
    rfl

/-- An addition changes A, C, Z, V and N, in either mode. -/
theorem addCore_eq (dec : Bool) (m : Byte) (c : Cpu) : ∃ r fc fz fv fn,
    addCore dec m c = { c with a := r, p := { c.p with c := fc, z := fz, v := fv, n := fn } } := by
  unfold addCore
  split <;> exact ⟨_, _, _, _, _, rfl⟩

/-- ARR changes the same, in either mode. -/
theorem arrCore_eq (dec : Bool) (m : Byte) (c : Cpu) : ∃ r fc fz fv fn,
    arrCore dec m c = { c with a := r, p := { c.p with c := fc, z := fz, v := fv, n := fn } } := by
  unfold arrCore
  dsimp only
  split <;> exact ⟨_, _, _, _, _, rfl⟩

/-- The destinations of ADC, which are those of SBC, RRA, ISC and ARR. -/
theorem changesOnly_adc (mode : BrkMode) {c x : Cpu} (k : Nat)
    (h : ∃ r fc fz fv fn, x = { c with a := r, p := { c.p with c := fc, z := fz, v := fv, n := fn } }) :
    ChangesOnly .adc mode c (spent k x) := by
  obtain ⟨_, _, _, _, _, rfl⟩ := h
  rfl

/-- An instruction changes no part of the CPU but its operation's destinations. -/
theorem exec_changesOnly {i : Instr} {s t : State} (h : exec i s = .next t) :
    ChangesOnly i.op s.params.brkMode s.cpu t.cpu := by
  cases i with
  | ldaIzx | ldaZp | ldaImm | ldaAbs | ldaIzy | ldaZpx | ldaAby | ldaAbx =>
    exact readInstr_changesOnly (fun m c => loadA m c) h fun _ _ => rfl
  | ldxImm | ldxZp | ldxAbs | ldxZpy | ldxAby =>
    exact readInstr_changesOnly (fun m c => loadX m c) h fun _ _ => rfl
  | ldyImm | ldyZp | ldyAbs | ldyZpx | ldyAbx =>
    exact readInstr_changesOnly (fun m c => loadY m c) h fun _ _ => rfl
  | andIzx | andZp | andImm | andAbs | andIzy | andZpx | andAby | andAbx =>
    exact readInstr_changesOnly (fun m c => loadA (c.a &&& m) c) h fun _ _ => rfl
  | oraIzx | oraZp | oraImm | oraAbs | oraIzy | oraZpx | oraAby | oraAbx =>
    exact readInstr_changesOnly (fun m c => loadA (c.a ||| m) c) h fun _ _ => rfl
  | eorIzx | eorZp | eorImm | eorAbs | eorIzy | eorZpx | eorAby | eorAbx =>
    exact readInstr_changesOnly (fun m c => loadA (c.a ^^^ m) c) h fun _ _ => rfl
  | bitZp | bitAbs =>
    exact readInstr_changesOnly (fun m c => bitTest m c) h fun _ _ => rfl
  | cmpIzx | cmpZp | cmpImm | cmpAbs | cmpIzy | cmpZpx | cmpAby | cmpAbx =>
    exact readInstr_changesOnly (fun m c => compareCore c.a m c) h fun _ _ => rfl
  | cpxImm | cpxZp | cpxAbs =>
    exact readInstr_changesOnly (fun m c => compareCore c.x m c) h fun _ _ => rfl
  | cpyImm | cpyZp | cpyAbs =>
    exact readInstr_changesOnly (fun m c => compareCore c.y m c) h fun _ _ => rfl
  | adcIzx | adcZp | adcImm | adcAbs | adcIzy | adcZpx | adcAby | adcAbx =>
    exact readInstr_changesOnly (fun m c => addCore s.params.decimalEnabled m c) h
      fun m k => changesOnly_adc s.params.brkMode k (addCore_eq _ m _)
  | sbcIzx | sbcZp | sbcImm | sbcImmEB | sbcAbs | sbcIzy | sbcZpx | sbcAby | sbcAbx =>
    exact readInstr_changesOnly (fun m c => subCore s.params.decimalEnabled m c) h fun _ _ => rfl
  | incZp | incAbs | incZpx | incAbx =>
    exact modifyInstr_changesOnly (fun m _ => m + 1) (fun _ n c => setNZ n c) h fun _ _ _ => rfl
  | decZp | decAbs | decZpx | decAbx =>
    exact modifyInstr_changesOnly (fun m _ => m - 1) (fun _ n c => setNZ n c) h fun _ _ _ => rfl
  | aslZp | aslAbs | aslZpx | aslAbx =>
    exact modifyInstr_changesOnly (fun m _ => shiftLeft m) (fun m n c => setNZ n (setC (bit7 m) c)) h
      fun _ _ _ => rfl
  | lsrZp | lsrAbs | lsrZpx | lsrAbx =>
    exact modifyInstr_changesOnly (fun m _ => shiftRight m) (fun m n c => setNZ n (setC (m.getLsbD 0) c)) h
      fun _ _ _ => rfl
  | rolZp | rolAbs | rolZpx | rolAbx =>
    exact modifyInstr_changesOnly (fun m c => rotateLeft m c.p.c) (fun m n c => setNZ n (setC (bit7 m) c)) h
      fun _ _ _ => rfl
  | rorZp | rorAbs | rorZpx | rorAbx =>
    exact modifyInstr_changesOnly (fun m c => rotateRight m c.p.c) (fun m n c => setNZ n (setC (m.getLsbD 0) c)) h
      fun _ _ _ => rfl
  | laxIzx | laxZp | laxAbs | laxIzy | laxZpy | laxAby =>
    exact readInstr_changesOnly (fun m c => setX m (loadA m c)) h fun _ _ => rfl
  | dcpIzx | dcpZp | dcpAbs | dcpIzy | dcpZpx | dcpAby | dcpAbx =>
    exact modifyInstr_changesOnly (fun m _ => m - 1) (fun _ n c => compareCore c.a n c) h fun _ _ _ => rfl
  | iscIzx | iscZp | iscAbs | iscIzy | iscZpx | iscAby | iscAbx =>
    exact modifyInstr_changesOnly (fun m _ => m + 1) (fun _ n c => subCore s.params.decimalEnabled n c) h
      fun _ _ _ => rfl
  | sloIzx | sloZp | sloAbs | sloIzy | sloZpx | sloAby | sloAbx =>
    exact modifyInstr_changesOnly (fun m _ => shiftLeft m) (fun m n c => loadA (c.a ||| n) (setC (bit7 m) c)) h
      fun _ _ _ => rfl
  | rlaIzx | rlaZp | rlaAbs | rlaIzy | rlaZpx | rlaAby | rlaAbx =>
    exact modifyInstr_changesOnly (fun m c => rotateLeft m c.p.c)
      (fun m n c => loadA (c.a &&& n) (setC (bit7 m) c)) h fun _ _ _ => rfl
  | sreIzx | sreZp | sreAbs | sreIzy | sreZpx | sreAby | sreAbx =>
    exact modifyInstr_changesOnly (fun m _ => shiftRight m)
      (fun m n c => loadA (c.a ^^^ n) (setC (m.getLsbD 0) c)) h fun _ _ _ => rfl
  | rraIzx | rraZp | rraAbs | rraIzy | rraZpx | rraAby | rraAbx =>
    exact modifyInstr_changesOnly (fun m c => rotateRight m c.p.c)
      (fun m n c => addCore s.params.decimalEnabled n (setC (m.getLsbD 0) c)) h
      fun _ n k => changesOnly_adc s.params.brkMode k (addCore_eq _ n _)
  | ancImm0B | ancImm2B =>
    exact readInstr_changesOnly (fun m c => ancCore m c) h fun _ _ => rfl
  | alrImm =>
    exact readInstr_changesOnly (fun m c => alrCore m c) h fun _ _ => rfl
  | axsImm =>
    exact readInstr_changesOnly (fun m c => axsCore m c) h fun _ _ => rfl
  | lasAby =>
    exact readInstr_changesOnly (fun m c => lasCore m c) h fun _ _ => rfl
  | arrImm =>
    exact readInstr_changesOnly (fun m c => arrCore s.params.decimalEnabled m c) h
      fun m k => changesOnly_adc s.params.brkMode k (arrCore_eq _ m _)
  | nopZp04 | nopAbs | nopZpx14 | nopAbx1C | nopZpx34 | nopAbx3C | nopZp44 | nopZpx54 | nopAbx5C | nopZp64
  | nopZpx74 | nopAbx7C | nopImm80 | nopImm82 | nopImm89 | nopImmC2 | nopZpxD4 | nopAbxDC | nopImmE2 | nopZpxF4
  | nopAbxFC =>
    exact readInstr_changesOnly (fun _ c => c) h fun _ _ => rfl
  | staIzx | staZp | staAbs | staIzy | staZpx | staAby | staAbx | stxZp | stxAbs | stxZpy | styZp | styAbs | styZpx
  | saxIzx | saxZp | saxAbs | saxZpy =>
    exact writeInstr_changesOnly h fun _ => rfl
  | aslAcc | lsrAcc | rolAcc | rorAcc | nopImp1A | nopImp3A | nopImp5A | nopImp7A | nopImpDA | nopImp | nopImpFA
  | taxImp | tayImp | txaImp | tyaImp | tsxImp | txsImp | inxImp | inyImp | dexImp | deyImp | clcImp | secImp
  | cliImp | seiImp | cldImp | sedImp | clvImp | jmpAbs =>
    exact cpuInstr_changesOnly h fun _ => rfl
  | jmpInd =>
    exact jmpInd_changesOnly h
  | bccRel | bcsRel | beqRel | bneRel | bmiRel | bplRel | bvcRel | bvsRel =>
    exact branch_changesOnly h (fun _ _ => rfl) fun _ => rfl
  | jamImp02 | jamImp12 | jamImp22 | jamImp32 | jamImp42 | jamImp52 | jamImp62 | jamImp72 | jamImp92 | jamImpB2
  | jamImpD2 | jamImpF2 | xaaImm | lxaImm | shaIzy | shaAby | shyAbx | shxAby | tasAby =>
    exact haltIllegal_changesOnly h fun _ _ => rfl
  | phaImp =>
    rw [exec_pha] at h; cases h; rfl
  | phpImp =>
    rw [exec_php] at h; cases h; rfl
  | plaImp =>
    rw [exec_pla] at h; cases h; rfl
  | plpImp =>
    rw [exec_plp] at h; cases h; rfl
  | jsrAbs =>
    rw [exec_jsr] at h; cases h; rfl
  | rtsImp =>
    rw [exec_rts] at h; cases h; rfl
  | rtiImp =>
    rw [exec_rti] at h; cases h; rfl
  | brkImp =>
    exact brk_changesOnly h

/-- Settles O37: no row of `destinationsFrom` has a flag, `nmi_pending` or a halt field that the flag table does not
give its operation. -/
theorem flagsChangeOnlyInTheirWriters : Obligations.FlagsChangeOnlyInTheirWriters := by
  intro i s t h
  rw [exec_changesOnly h]
  generalize i.op = o
  cases o <;> simp +contextual [destinationsFrom]

/-- Settles O38: no row of `destinationsFrom` has a register that its operation does not name as a destination. -/
theorem registersChangeOnlyInTheirWriters : Obligations.RegistersChangeOnlyInTheirWriters := by
  intro i s t h
  rw [exec_changesOnly h]
  generalize i.op = o
  cases o <;> simp [destinationsFrom]

/-! ## Reset -/

/-- Settles O43: every field by evaluation; the vector's two bytes are read from the blank cartridge. -/
theorem resetValues : Obligations.ResetValues :=
  ⟨rfl, rfl, rfl, rfl, rfl, ⟨rfl, rfl⟩, ⟨rfl, rfl, rfl, rfl⟩, ⟨rfl, rfl⟩, ⟨rfl, rfl, rfl, rfl, rfl⟩,
    ⟨rfl, rfl, rfl, rfl, rfl⟩, ⟨rfl, rfl, rfl, rfl, rfl, rfl⟩, ⟨rfl, rfl, rfl, rfl⟩, ⟨rfl, rfl⟩,
    ⟨rfl, rfl, rfl, rfl⟩, ⟨rfl, rfl, rfl, rfl⟩, rfl⟩

end Sys2Proof.Machine
end

section
/-! PROOFS. The statements about memory (20_memory): what a push and a pull change, and a pull right after a push. -/

namespace Sys2Proof.Machine

/-! ## The stack (rules R46 and R47) -/

/-- The push leaves `S` one below the cell it stored and the pull steps back onto that cell, also across the wrap. -/
theorem pull_push (v : Byte) {s : State} (h : Store.wf s.bus.ram = true) :
    (pull (push v s)).val = v ∧ (pull (push v s)).st.cpu = s.cpu := by
  simp only [pull_eq, push_eq, BitVec.sub_add_cancel, stackByte, readCell_stackStore h, if_true, and_self]

/-- Settles O12: `push_eq` and `pull_eq` with the byte arithmetic of `S` written over numbers, and `pull_push`. -/
theorem stackWrapsInsidePageOne : Obligations.StackWrapsInsidePageOne := by
  refine ⟨fun s v => ?_, fun s => ?_, fun s v h => pull_push v h⟩
  · rw [push_eq, sub_one_eq_ofInt, stackStore]
  · rw [pull_eq, stackByte, add_one_eq_ofNat, BitVec.toNat_ofNat]

end Sys2Proof.Machine
end

section
/-! PROOFS. The statements about the encoding (30_encoding): decoding and encoding undo each other, and a step runs the
instruction whose bytes it fetches. -/

namespace Sys2Proof

/-! ## Decoding an encoding (rules R70, R71, R74, R76) -/

open Laws.RoundTrip in
/-- By cases on the instruction: the round-trip lemmas of the 256 constructors, in the order of `Instr`. -/
theorem decode_encode (i : Instr) : Statement i :=
  i.rec (motive := Statement)
    oraIzx sloIzx nopZp04 oraZp aslZp sloZp oraImm ancImm0B bplRel oraIzy sloIzy nopZpx14 oraZpx aslZpx sloZpx
    andIzx rlaIzx bitZp andZp rolZp rlaZp andImm ancImm2B bmiRel andIzy rlaIzy nopZpx34 andZpx rolZpx rlaZpx eorIzx
    sreIzx nopZp44 eorZp lsrZp sreZp eorImm alrImm bvcRel eorIzy sreIzy nopZpx54 eorZpx lsrZpx sreZpx adcIzx rraIzx
    nopZp64 adcZp rorZp rraZp adcImm arrImm bvsRel adcIzy rraIzy nopZpx74 adcZpx rorZpx rraZpx nopImm80 staIzx
    nopImm82 saxIzx styZp staZp stxZp saxZp nopImm89 xaaImm bccRel staIzy shaIzy styZpx staZpx stxZpy saxZpy ldyImm
    ldaIzx ldxImm laxIzx ldyZp ldaZp ldxZp laxZp ldaImm lxaImm bcsRel ldaIzy laxIzy ldyZpx ldaZpx ldxZpy laxZpy
    cpyImm cmpIzx nopImmC2 dcpIzx cpyZp cmpZp decZp dcpZp cmpImm axsImm bneRel cmpIzy dcpIzy nopZpxD4 cmpZpx decZpx
    dcpZpx cpxImm sbcIzx nopImmE2 iscIzx cpxZp sbcZp incZp iscZp sbcImm sbcImmEB beqRel sbcIzy iscIzy nopZpxF4
    sbcZpx incZpx iscZpx nopAbs oraAbs aslAbs sloAbs oraAby sloAby nopAbx1C oraAbx aslAbx sloAbx jsrAbs bitAbs
    andAbs rolAbs rlaAbs andAby rlaAby nopAbx3C andAbx rolAbx rlaAbx jmpAbs eorAbs lsrAbs sreAbs eorAby sreAby
    nopAbx5C eorAbx lsrAbx sreAbx jmpInd adcAbs rorAbs rraAbs adcAby rraAby nopAbx7C adcAbx rorAbx rraAbx styAbs
    staAbs stxAbs saxAbs staAby tasAby shyAbx staAbx shxAby shaAby ldyAbs ldaAbs ldxAbs laxAbs ldaAby lasAby ldyAbx
    ldaAbx ldxAby laxAby cpyAbs cmpAbs decAbs dcpAbs cmpAby dcpAby nopAbxDC cmpAbx decAbx dcpAbx cpxAbs sbcAbs
    incAbs iscAbs sbcAby iscAby nopAbxFC sbcAbx incAbx iscAbx brkImp jamImp02 phpImp aslAcc jamImp12 clcImp nopImp1A
    jamImp22 plpImp rolAcc jamImp32 secImp nopImp3A rtiImp jamImp42 phaImp lsrAcc jamImp52 cliImp nopImp5A rtsImp
    jamImp62 plaImp rorAcc jamImp72 seiImp nopImp7A deyImp txaImp jamImp92 tyaImp txsImp tayImp taxImp jamImpB2
    clvImp tsxImp inyImp dexImp jamImpD2 cldImp nopImpDA inxImp nopImp jamImpF2 sedImp nopImpFA

/-- Settles O2: no instruction is ill-formed, so this is `decode_encode`. -/
theorem decodeOfEncodeIsTheInstruction : Obligations.DecodeOfEncodeIsTheInstruction :=
  fun i rest _ => decode_encode i rest

/-- Settles O1, each row by evaluation. -/
theorem sampleBytesDecodeAsTheTableSays : Obligations.SampleBytesDecodeAsTheTableSays :=
  ⟨rfl, rfl, rfl, rfl, rfl, rfl, rfl, rfl, rfl, rfl, rfl, rfl, rfl, rfl⟩

/-! ## What decodes is an encoding (rules R70, R71, R75) -/

/-- The ways a byte string can decode: one for each format of the opcode byte's cell. -/
inductive Decoded : List Byte → Instr → List Byte → Prop
  | f1 {op : Byte} {i : Instr} {r : List Byte} : decodeOpcode op = .f1 i → Decoded (op :: r) i r
  | f2 {op b : Byte} {mk : Byte → Instr} {r : List Byte} : decodeOpcode op = .f2 mk →
      Decoded (op :: b :: r) (mk b) r
  | f3 {op b1 b2 : Byte} {mk : Word → Instr} {r : List Byte} : decodeOpcode op = .f3 mk →
      Decoded (op :: b1 :: b2 :: r) (mk (mkWord b2 b1)) r

theorem decode_eq_ok_iff {bytes rest : List Byte} {i : Instr} :
    decode bytes = .ok (i, rest) ↔ Decoded bytes i rest := by
  constructor
  · intro h
    unfold decode at h
    split at h
    · cases h
    · split at h <;> cases h
      · exact .f1 ‹_›
      · exact .f2 ‹_›
      · exact .f3 ‹_›
  · intro h
    cases h with
    | f1 h | f2 h | f3 h => simp [decode, h]

/-- What a cell of the matrix makes of the operand `b` or `n` that its format takes is encoded under `op`. -/
def Form.EncodesUnder (op b : Byte) (n : Word) : Form → Prop
  | .f1 i => encode i = [op]
  | .f2 mk => encode (mk b) = [op, b]
  | .f3 mk => encode (mk n) = [op, loByte n, hiByte n]

/-- Each of the 256 cells of the matrix is encoded under its own opcode byte. -/
theorem decodeOpcode_encodesUnder (op b : Byte) (n : Word) : (decodeOpcode op).EncodesUnder op b n := by
  have cells : ∀ k < 256, (decodeOpcode (BitVec.ofNat 8 k)).EncodesUnder (BitVec.ofNat 8 k) b n := by
    intro k hk
    interval_cases k <;> exact rfl
  simpa using cells op.toNat op.isLt

theorem Decoded.bytes_eq {bytes rest : List Byte} {i : Instr} (h : Decoded bytes i rest) :
    bytes = encode i ++ rest := by
  cases h with
  | @f1 op i _ h =>
    have he : encode i = [op] := by
      simpa only [h, Form.EncodesUnder] using decodeOpcode_encodesUnder op 0 0
    rw [he, List.singleton_append]
  | @f2 op b mk _ h =>
    have he : encode (mk b) = [op, b] := by
      simpa only [h, Form.EncodesUnder] using decodeOpcode_encodesUnder op b 0
    rw [he, List.cons_append, List.singleton_append]
  | @f3 op b1 b2 mk _ h =>
    have he : encode (mk (mkWord b2 b1)) = [op, b1, b2] := by
      simpa only [h, Form.EncodesUnder, Machine.loByte_mkWord, Machine.hiByte_mkWord] using
        decodeOpcode_encodesUnder op 0 (mkWord b2 b1)
    rw [he, List.cons_append, List.cons_append, List.singleton_append]

/-- Three bytes are enough for every cell: every opcode value is assigned. -/
theorem exists_decoded (op b1 b2 : Byte) (rest : List Byte) : ∃ i r, Decoded (op :: b1 :: b2 :: rest) i r :=
  match h : decodeOpcode op with
  | .f1 _ => ⟨_, _, .f1 h⟩
  | .f2 _ => ⟨_, _, .f2 h⟩
  | .f3 _ => ⟨_, _, .f3 h⟩

theorem decode_encode_nil (i : Instr) : decode (encode i) = .ok (i, []) := by
  simpa only [List.append_nil] using decode_encode i []

theorem decoded_encode (i : Instr) : Decoded (encode i) i [] := decode_eq_ok_iff.1 (decode_encode_nil i)

theorem Instr.length_bounds (i : Instr) : 1 ≤ i.length ∧ i.length ≤ 3 := by
  have h := decoded_encode i
  unfold Instr.length
  generalize encode i = bytes at h
  cases h <;> simp

theorem Decoded.opcode_eq {op : Byte} {bytes rest : List Byte} {i : Instr} (h : Decoded (op :: bytes) i rest) :
    i.opcode = op := by
  have hbytes := h.bytes_eq
  have hlen := (Instr.length_bounds i).1
  unfold Instr.length at hlen
  unfold Instr.opcode
  cases hi : encode i with
  | nil => simp [hi] at hlen
  | cons a operand =>
    rw [hi] at hbytes
    exact (List.cons.inj hbytes).1.symm

/-- Settles O3: every cell decodes, and the bytes of a cell are the encoding of its instruction. -/
theorem decodeIsTotalAndOneToOne : Obligations.DecodeIsTotalAndOneToOne := by
  refine ⟨fun op b1 b2 rest => ?_, fun bytes rest i h => (decode_eq_ok_iff.1 h).bytes_eq⟩
  obtain ⟨i, r, h⟩ := exists_decoded op b1 b2 rest
  exact ⟨i, r, decode_eq_ok_iff.2 h, h.opcode_eq, Instr.length_bounds i⟩

end Sys2Proof

namespace Sys2Proof.Machine

/-! ## The fetch (rules R72, R73) -/

/-- A fetch after `n` bytes reads the byte at `PC + n`; no read looks at the CPU's registers. -/
theorem fetchByte_skip (n : Nat) (s : State) :
    fetchByte (skip n s) =
      { val := (busRead (s.cpu.pc + BitVec.ofNat 16 n) s).val,
        st := skip (n + 1) (busRead (s.cpu.pc + BitVec.ofNat 16 n) s).st } := by
  simp only [fetchByte, skip, busRead_setCpu, mapCpu, setPc, busRead_cpu, BitVec.ofNat_add, BitVec.add_assoc,
    BitVec.ofNat_eq_ofNat]

theorem fetch_eq (s : State) :
    fetch s =
      let r := busRead s.cpu.pc s
      if r.val ∈ haltOpcodes then { instr := (decodeOpcode r.val).build 0 0, st := skip 1 r.st }
      else fetchOperand (decodeOpcode r.val) (skip 1 r.st) := rfl

/-- The reads that `Fetches` names are those of `fetch`. -/
theorem fetch_of_fetches {s t : State} {i : Instr} (h : Fetches s i t) : fetch s = { instr := i, st := t } := by
  rcases h with ⟨hd, rfl⟩ | ⟨hn, hd, rfl⟩ | ⟨hn, hd, rfl⟩
  · cases decode_eq_ok_iff.1 hd with
    | f1 h => simp only [fetch_eq, h, Form.build, fetchOperand, ite_self]
  · cases decode_eq_ok_iff.1 hd with
    | f2 h =>
      simp only [fetch_eq, h, if_neg hn, fetchOperand, fetchByte_skip, busRead_cpu]
      rfl
  · cases decode_eq_ok_iff.1 hd with
    | f3 h =>
      simp only [fetch_eq, h, if_neg hn, fetchOperand, fetchByte_skip, busRead_cpu]
      rfl

/-- Settles O4: a running machine's step runs what `fetch` gives. -/
theorem stepRunsTheFetchedInstruction : Obligations.StepRunsTheFetchedInstruction := by
  intro s t i hs h
  rw [step_of_running s hs, runInstruction, fetch_of_fetches h]

/-- Bytes that stand in memory are fetched as they stand, and their reads leave the machine. -/
theorem fetches_of_bytesAt {s : State} {i : Instr} (hn : i.opcode ∉ haltOpcodes)
    (hb : BytesAt s.cpu.pc (encode i) s) : Fetches s i (skip i.length s) := by
  have hd := decode_encode_nil i
  have hcell := decoded_encode i
  unfold Instr.opcode at hn
  unfold Instr.length Fetches
  generalize encode i = bytes at hd hcell hn hb ⊢
  cases hcell with
  | f1 h =>
    obtain ⟨h0, -⟩ := hb
    simp only [busRead_peek h0]
    exact .inl ⟨hd, rfl⟩
  | f2 h =>
    obtain ⟨h0, h1, -⟩ := hb
    simp only [busRead_peek h0, busRead_peek h1]
    exact .inr (.inl ⟨hn, hd, rfl⟩)
  | f3 h =>
    obtain ⟨h0, h1, h2, -⟩ := hb
    rw [show s.cpu.pc + 1 + 1 = s.cpu.pc + 2 from BitVec.add_assoc _ 1 1] at h2
    simp only [busRead_peek h0, busRead_peek h1, busRead_peek h2]
    exact .inr (.inr ⟨hn, hd, rfl⟩)

/-- Settles O5: bytes in memory are one case of a fetch. -/
theorem stepRunsTheInstructionInMemory : Obligations.StepRunsTheInstructionInMemory :=
  fun s i hs hn hb => stepRunsTheFetchedInstruction s _ i hs (fetches_of_bytesAt hn hb)

end Sys2Proof.Machine
end

section
/-! PROOFS. The statements about addressing (40_addressing): what an instruction costs, and which bytes of memory it can
change. -/

namespace Sys2Proof.Machine

/-! ## The cost (rule R105) -/

theorem addCore_cycles (dec : Bool) (m : Byte) (c : Cpu) : (addCore dec m c).cycles = c.cycles := by
  obtain ⟨_, _, _, _, _, h⟩ := addCore_eq dec m c
  rw [h]

theorem arrCore_cycles (dec : Bool) (m : Byte) (c : Cpu) : (arrCore dec m c).cycles = c.cycles := by
  obtain ⟨_, _, _, _, _, h⟩ := arrCore_eq dec m c
  rw [h]

theorem readOperand_cpu (src : Source) (s : State) : (readOperand src s).st.cpu = s.cpu := by
  cases src <;> simp [readOperand, resolve_eq]

theorem readOperand_crossed (src : Source) (s : State) : (readOperand src s).crossed = sourceCrosses src s := by
  cases src <;> simp [readOperand, resolve_eq, sourceCrosses]

/-! ### By access class: the cycles an instruction adds

For `readInstr` and `modifyInstr` the hypothesis is the state they answer, with the operation on its operand as one
function `g` of the CPU: an instruction unfolds to it whatever its operation is, so one rule serves the class. -/

section ByClass

variable {s t : State} {base : Nat} {g : Cpu → Cpu}

theorem readInstr_cycles {penalty : Bool} {src : Source}
    (h : (.next (charge (costOf base penalty (readOperand src s).crossed) (mapCpu g (readOperand src s).st)) : Out) =
      .next t) (hg : ∀ c, (g c).cycles = c.cycles) :
    t.cpu.cycles = s.cpu.cycles + if penalty && sourceCrosses src s then base + 1 else base := by
  cases h
  rw [← costOf_eq, ← readOperand_crossed, charge_cpu, spent_cycles, mapCpu_cpu, hg, readOperand_cpu]

theorem writeInstr_cycles {m : MemMode} {v : Byte} (h : writeInstr base m v s = .next t) :
    t.cpu.cycles = s.cpu.cycles + base := by
  rw [writeInstr_eq] at h
  cases h
  rfl

theorem modifyInstr_cycles {m : MemMode} {a : Word} {v : Byte}
    (h : (.next (charge base (mapCpu g (busWrite a v (busRead a (resolve m s).st).st))) : Out) = .next t)
    (hg : ∀ c, (g c).cycles = c.cycles) : t.cpu.cycles = s.cpu.cycles + base := by
  cases h
  rw [charge_cpu, spent_cycles, mapCpu_cpu, hg, busWrite_cpu, busRead_cpu, resolve_eq]

theorem cpuInstr_cycles (h : cpuInstr base g s = .next t) (hg : ∀ c, (g c).cycles = c.cycles) :
    t.cpu.cycles = s.cpu.cycles + base := by
  cases h
  rw [charge_cpu, spent_cycles, mapCpu_cpu, hg]

theorem branch_cycles {taken : Bool} {d : Byte} (h : branch taken d s = .next t) :
    t.cpu.cycles = s.cpu.cycles +
      if taken then (if (branchTarget s.cpu.pc d).toNat / 256 = s.cpu.pc.toNat / 256 then 3 else 4) else 2 := by
  rw [branch_eq_branches] at h
  cases taken with
  | false => cases h; rfl
  | true => cases h; rfl

theorem haltIllegal_cycles {opcode : Byte} (h : haltIllegal opcode s = .next t) :
    t.cpu.cycles = s.cpu.cycles + 0 := by
  cases h
  rfl

end ByClass

theorem jmpInd_cycles {n : Word} {s t : State} (h : exec (.jmpInd n) s = .next t) :
    t.cpu.cycles = s.cpu.cycles + 5 := by
  rw [exec_jmpInd] at h
  cases h
  rw [charge_cpu, spent_cycles, mapCpu_cpu, indirectTarget, readPair_cpu]
  rfl

/-- BRK pays as the software interrupt only. -/
theorem brk_cycles {s t : State} (h : brk s = .next t) :
    t.cpu.cycles = s.cpu.cycles + if s.params.brkMode = .halt then 0 else 7 := by
  unfold brk at h
  cases hm : s.params.brkMode with
  | halt =>
    rw [hm] at h
    cases h
    rfl
  | interrupt =>
    rw [hm] at h
    simp only [brkInterrupt, interruptEntry_eq] at h
    cases h
    rfl

/-! ### Against the table -/

/-- The cycles `n` of a meaning are the table's, which evaluates once the opcode byte is out of the encoding. -/
theorem cost_of_cycles {i : Instr} {s t : State} {n : Nat} (h : t.cpu.cycles = s.cpu.cycles + n)
    (hcell : tableCost i s = n := by dsimp only [tableCost, Instr.opcode, encode, List.headD]; rfl) :
    t.cpu.cycles = s.cpu.cycles + tableCost i s :=
  hcell ▸ h

/-- The cost each meaning carries is the cell of its opcode. -/
theorem exec_cost {i : Instr} {s t : State} (h : exec i s = .next t) :
    t.cpu.cycles = s.cpu.cycles + tableCost i s := by
  cases i with
  | oraIzx | oraZp | oraImm | oraZpx | oraAbs | oraIzy | oraAby | oraAbx | nopZp04 | nopZpx14 | nopZpx34 | nopZp44
  | nopZpx54 | nopZp64 | nopZpx74 | nopImm80 | nopImm82 | nopImm89 | nopImmC2 | nopZpxD4 | nopImmE2 | nopZpxF4
  | nopAbs | nopAbx1C | nopAbx3C | nopAbx5C | nopAbx7C | nopAbxDC | nopAbxFC | ancImm0B | ancImm2B | andIzx | andZp
  | andImm | andZpx | andAbs | andIzy | andAby | andAbx | bitZp | bitAbs | eorIzx | eorZp | eorImm | eorZpx | eorAbs
  | eorIzy | eorAby | eorAbx | alrImm | ldyImm | ldyZp | ldyZpx | ldyAbs | ldyAbx | ldaIzx | ldaZp | ldaImm | ldaZpx
  | ldaAbs | ldaIzy | ldaAby | ldaAbx | ldxImm | ldxZp | ldxZpy | ldxAbs | ldxAby | laxIzx | laxZp | laxZpy | laxAbs
  | laxIzy | laxAby | axsImm | sbcIzx | sbcZp | sbcImm | sbcImmEB | sbcZpx | sbcAbs | sbcIzy | sbcAby | sbcAbx
  | lasAby =>
    exact cost_of_cycles (readInstr_cycles h fun _ => rfl)
  | adcIzx | adcZp | adcImm | adcZpx | adcAbs | adcIzy | adcAby | adcAbx =>
    exact cost_of_cycles (readInstr_cycles h (addCore_cycles _ _))
  | arrImm =>
    exact cost_of_cycles (readInstr_cycles h (arrCore_cycles _ _))
  | cpyImm | cpyZp | cpyAbs | cmpIzx | cmpZp | cmpImm | cmpZpx | cmpAbs | cmpIzy | cmpAby | cmpAbx | cpxImm | cpxZp
  | cpxAbs =>
    exact cost_of_cycles (readInstr_cycles h fun _ => compareCore_cycles _ _ _)
  | staIzx | staZp | staIzy | staZpx | staAbs | staAby | staAbx | saxIzx | saxZp | saxZpy | saxAbs | styZp | styZpx
  | styAbs | stxZp | stxZpy | stxAbs =>
    exact cost_of_cycles (writeInstr_cycles h)
  | sloIzx | sloZp | sloIzy | sloZpx | sloAbs | sloAby | sloAbx | aslZp | aslZpx | aslAbs | aslAbx | rlaIzx | rlaZp
  | rlaIzy | rlaZpx | rlaAbs | rlaAby | rlaAbx | rolZp | rolZpx | rolAbs | rolAbx | sreIzx | sreZp | sreIzy | sreZpx
  | sreAbs | sreAby | sreAbx | lsrZp | lsrZpx | lsrAbs | lsrAbx | rorZp | rorZpx | rorAbs | rorAbx | decZp | decZpx
  | decAbs | decAbx | iscIzx | iscZp | iscIzy | iscZpx | iscAbs | iscAby | iscAbx | incZp | incZpx | incAbs | incAbx =>
    exact cost_of_cycles (modifyInstr_cycles h fun _ => rfl)
  | rraIzx | rraZp | rraIzy | rraZpx | rraAbs | rraAby | rraAbx =>
    exact cost_of_cycles (modifyInstr_cycles h fun _ => addCore_cycles _ _ _)
  | dcpIzx | dcpZp | dcpIzy | dcpZpx | dcpAbs | dcpAby | dcpAbx =>
    exact cost_of_cycles (modifyInstr_cycles h fun _ => compareCore_cycles _ _ _)
  | jmpAbs | aslAcc | clcImp | nopImp1A | nopImp3A | nopImp5A | nopImp7A | nopImpDA | nopImp | nopImpFA | rolAcc
  | secImp | lsrAcc | cliImp | rorAcc | seiImp | deyImp | txaImp | tyaImp | txsImp | tayImp | taxImp | clvImp
  | tsxImp | inyImp | dexImp | cldImp | inxImp | sedImp =>
    exact cost_of_cycles (cpuInstr_cycles h fun _ => rfl)
  | bplRel | bmiRel | bvcRel | bvsRel | bccRel | bcsRel | bneRel | beqRel =>
    exact cost_of_cycles (branch_cycles h)
  | xaaImm | shaIzy | shaAby | lxaImm | tasAby | shyAbx | shxAby | jamImp02 | jamImp12 | jamImp22 | jamImp32
  | jamImp42 | jamImp52 | jamImp62 | jamImp72 | jamImp92 | jamImpB2 | jamImpD2 | jamImpF2 =>
    exact cost_of_cycles (haltIllegal_cycles h)
  | phaImp | phpImp | plaImp | plpImp | jsrAbs | rtsImp | rtiImp =>
    simp only [exec_pha, exec_php, exec_pla, exec_plp, exec_jsr, exec_rts, exec_rti] at h
    cases h
    exact cost_of_cycles rfl
  | jmpInd =>
    exact cost_of_cycles (jmpInd_cycles h)
  | brkImp =>
    exact cost_of_cycles (brk_cycles h) (if_congr (and_iff_right rfl) rfl rfl)

/-- Settles O36, by `exec_cost`. -/
theorem costIsTheTableEntry : Obligations.CostIsTheTableEntry := fun _ _ _ => exec_cost

/-! ## The bytes an instruction can change (rule R107, 20_memory rule R52) -/

/-- What a store disturbs is a matter of the mapper alone. -/
theorem disturbs_congr {s t : State} (h : t.cart.mapper = s.cart.mapper) (w a : Word) :
    disturbs w a t = disturbs w a s := by
  simp only [disturbs, h]

@[simp] theorem disturbs_busRead (w a b : Word) (s : State) : disturbs w a (busRead b s).st = disturbs w a s :=
  disturbs_congr (busRead_sameSession b s).mapper w a

@[simp] theorem peek_readPair (a lo hi : Word) (s : State) : peek a (readPair lo hi s).st = peek a s := by
  simp only [readPair, peek_busRead]

/-! ### Pushes -/

/-- None of the next `n` bytes pushed disturbs `a`. -/
def StackApart (a : Word) (n : Nat) (s : State) : Prop :=
  ∀ k < n, disturbs (mkWord 0x01 (s.cpu.s - BitVec.ofNat 8 k)) a s = false

/-- The same of the stack addresses as `storedAddresses` lists them. -/
theorem stackApart_iff {a : Word} {n : Nat} {s : State} :
    StackApart a n s ↔
      ∀ w ∈ (List.range n).map fun k => mkWord 0x01 (s.cpu.s - BitVec.ofNat 8 k), disturbs w a s = false := by
  simp only [StackApart, List.forall_mem_map, List.mem_range]

theorem push_s (v : Byte) (s : State) : (push v s).cpu.s = s.cpu.s - 1 := by
  rw [push_eq]

theorem StackApart.peek_push {a : Word} {n : Nat} {s : State} (h : StackApart a (n + 1) s) (v : Byte) :
    peek a (push v s) = peek a s := by
  have h0 : disturbs (stackAddress s.cpu.s) a s = false := by
    simpa [stackAddress_eq] using h 0 n.succ_pos
  exact peek_busWrite v h0

theorem StackApart.after_push {a : Word} {n : Nat} {s : State} (h : StackApart a (n + 1) s) (v : Byte) :
    StackApart a n (push v s) := by
  intro k hk
  have hs : (push v s).cpu.s - BitVec.ofNat 8 k = s.cpu.s - BitVec.ofNat 8 (k + 1) := by
    rw [push_s, BitVec.ofNat_add, BitVec.sub_sub, BitVec.add_comm]
    rfl
  rw [hs, disturbs_congr (by rw [push_eq])]
  exact h (k + 1) (Nat.succ_lt_succ hk)

/-- Bytes pushed one after another. -/
def pushAll : List Byte → State → State
  | [], s => s
  | v :: vs, s => pushAll vs (push v s)

/-- Pushes leave every byte that their stack addresses do not disturb. -/
theorem peek_pushAll {a : Word} {vs : List Byte} {s : State} (h : StackApart a vs.length s) :
    peek a (pushAll vs s) = peek a s := by
  induction vs generalizing s with
  | nil => rfl
  | cons v vs ih => exact (ih (h.after_push v)).trans (h.peek_push v)

/-- A push instruction is as many pushes as its access class says, and a change of the CPU. -/
theorem exec_push {i : Instr} {n : Nat} (ha : i.access = .push n) (s : State) :
    ∃ vs c, vs.length = n ∧ exec i s = .next { pushAll vs s with cpu := c } := by
  cases i with
  | phaImp => cases ha; exact ⟨[s.cpu.a], _, rfl, rfl⟩
  | phpImp => cases ha; exact ⟨[pack s.cpu.p true], _, rfl, rfl⟩
  | jsrAbs w => cases ha; exact ⟨[hiByte (s.cpu.pc - 1), loByte (s.cpu.pc - 1)], _, rfl, rfl⟩
  | _ => cases ha

/-- A pull instruction changes only the CPU. -/
theorem exec_pull {i : Instr} {n : Nat} (ha : i.access = .pull n) (s : State) :
    ∃ k f, exec i s = touchesCpu k f s := by
  cases i with
  | plaImp => exact ⟨_, _, exec_pla s⟩
  | plpImp => exact ⟨_, _, exec_plp s⟩
  | rtsImp => exact ⟨_, _, exec_rts s⟩
  | rtiImp => exact ⟨_, _, exec_rti s⟩
  | _ => cases ha

theorem peek_interruptEntry {a : Word} {s : State} (h : StackApart a 3 s) (vec : Word) (b : Bool) :
    peek a (interruptEntry vec b s) = peek a s :=
  (peek_readPair a vec (vec + 1) _).trans
    (peek_pushAll (vs := [hiByte s.cpu.pc, loByte s.cpu.pc, pack (pushWord s.cpu.pc s).cpu.p b]) h)

theorem peek_brk {a : Word} {s t : State} (h : brk s = .next t)
    (ha : s.params.brkMode = .interrupt → StackApart a 3 s) : peek a t = peek a s := by
  unfold brk at h
  cases hm : s.params.brkMode with
  | halt =>
    rw [hm] at h
    cases h
    rfl
  | interrupt =>
    rw [hm] at h
    cases h
    exact peek_interruptEntry (s := mapCpu (setPc (s.cpu.pc + 1)) s) (ha hm) vecIrq true

/-! ### Every instruction -/

/-- Settles O39, by access class: what stores does so with `busWrite` at its stored addresses, what does not leaves RAM
and cartridge, and no read changes a byte. -/
theorem memoryChangesOnlyWhereStored : Obligations.MemoryChangesOnlyWhereStored := by
  intro i s t h a hd
  have hc := exec_byClass i s
  unfold AnswersByClass at hc
  unfold storedAddresses at hd
  cases hi : i.access with
  | idle =>
    simp only [hi] at hc
    obtain ⟨k, f, e⟩ := hc
    rw [e] at h
    cases h
    rfl
  | read src =>
    simp only [hi] at hc
    obtain ⟨k, p, f, e⟩ := hc
    rw [e] at h
    cases h
    cases src with
    | imm b => rfl
    | mem m => exact peek_busRead (effectiveAddress m s) a s
  | write m =>
    simp only [hi] at hc hd
    obtain ⟨k, v, e⟩ := hc
    rw [e] at h
    cases h
    exact peek_busWrite v (hd _ List.mem_cons_self)
  | modify m =>
    simp only [hi] at hc hd
    obtain ⟨k, f, g, e⟩ := hc
    rw [e] at h
    cases h
    have hr : disturbs (effectiveAddress m s) a (busRead (effectiveAddress m s) s).st = false := by
      rw [disturbs_busRead]
      exact hd _ List.mem_cons_self
    exact (peek_busWrite _ hr).trans (peek_busRead _ a s)
  | push n =>
    simp only [hi] at hd
    obtain ⟨vs, c, rfl, e⟩ := exec_push hi s
    rw [e] at h
    cases h
    exact peek_pushAll (stackApart_iff.2 hd)
  | pull n =>
    obtain ⟨k, f, e⟩ := exec_pull hi s
    rw [e] at h
    cases h
    rfl
  | pointer n =>
    simp only [hi] at hc
    rw [hc] at h
    cases h
    exact peek_readPair a _ _ s
  | brk =>
    simp only [hi] at hc hd
    rw [hc] at h
    refine peek_brk h fun hm => stackApart_iff.2 ?_
    simpa only [hm] using hd
  | halt =>
    simp only [hi] at hc
    rw [hc] at h
    cases h
    rfl

end Sys2Proof.Machine
end

section
/-! PROOFS. The statements about loads, stores and transfers (41_load_store_transfer): each row is the line of
Laws/Meanings.lean about its constructor. -/

namespace Sys2Proof.Machine

/-- A row of an encoding table needs the instruction's own encoding and its answer: the decoding is `decode_encode`. -/
theorem Means.of_exec {bytes : List Byte} {i : Instr} {answer : State → Out} (hbytes : encode i = bytes)
    (hexec : ∀ s, exec i s = answer s) : Means bytes i answer := by
  subst hbytes
  exact ⟨rfl, decode_encode i, hexec⟩

/-- Settles O14: the loads of the meanings are the rule's, with `Z` and `N` over numbers. -/
theorem loadInstructions : Obligations.LoadInstructions := by
  intro b n
  rw [← loadA_eq_gotA, ← loadX_eq_gotX, ← loadY_eq_gotY]
  exact ⟨.of_exec rfl (exec_ldaIzx b), .of_exec rfl (exec_ldaZp b), .of_exec rfl (exec_ldaImm b),
    .of_exec rfl (exec_ldaAbs n), .of_exec rfl (exec_ldaIzy b), .of_exec rfl (exec_ldaZpx b),
    .of_exec rfl (exec_ldaAby n), .of_exec rfl (exec_ldaAbx n),
    .of_exec rfl (exec_ldxImm b), .of_exec rfl (exec_ldxZp b), .of_exec rfl (exec_ldxAbs n),
    .of_exec rfl (exec_ldxZpy b), .of_exec rfl (exec_ldxAby n),
    .of_exec rfl (exec_ldyImm b), .of_exec rfl (exec_ldyZp b), .of_exec rfl (exec_ldyAbs n),
    .of_exec rfl (exec_ldyZpx b), .of_exec rfl (exec_ldyAbx n)⟩

/-- Settles O15: a store is one write at the effective address of the state before it. -/
theorem storeInstructions : Obligations.StoreInstructions := by
  intro b n
  exact ⟨.of_exec rfl (exec_staIzx b), .of_exec rfl (exec_staZp b), .of_exec rfl (exec_staAbs n),
    .of_exec rfl (exec_staIzy b), .of_exec rfl (exec_staZpx b), .of_exec rfl (exec_staAby n),
    .of_exec rfl (exec_staAbx n),
    .of_exec rfl (exec_stxZp b), .of_exec rfl (exec_stxAbs n), .of_exec rfl (exec_stxZpy b),
    .of_exec rfl (exec_styZp b), .of_exec rfl (exec_styAbs n), .of_exec rfl (exec_styZpx b)⟩

/-- Settles O16: a transfer loads its destination from a register; TXS sets `S` alone. -/
theorem transferInstructions : Obligations.TransferInstructions := by
  unfold Obligations.TransferInstructions
  rw [← loadA_eq_gotA, ← loadX_eq_gotX, ← loadY_eq_gotY]
  exact ⟨.of_exec rfl exec_taxImp, .of_exec rfl exec_tayImp, .of_exec rfl exec_txaImp, .of_exec rfl exec_tyaImp,
    .of_exec rfl exec_tsxImp, .of_exec rfl exec_txsImp⟩

end Sys2Proof.Machine
end

section
/-! PROOFS. The statements about logic and arithmetic (43_logic_arith): each row is the line of Laws/Meanings.lean about
its constructor, and on decimal operands the decimal mode adds and subtracts numbers of two digits. -/

namespace Sys2Proof.Machine

/-! ## The rows of the encoding tables (rules R150 to R161, R243) -/

/-- Settles O17: a bitwise operation loads its result into `A`, and BIT is the test over numbers. -/
theorem logicInstructions : Obligations.LogicInstructions := by
  intro b n
  rw [← loadA_eq_gotA, ← bitTest_eq_bitTested]
  exact ⟨.of_exec rfl (exec_andIzx b), .of_exec rfl (exec_andZp b), .of_exec rfl (exec_andImm b),
    .of_exec rfl (exec_andAbs n), .of_exec rfl (exec_andIzy b), .of_exec rfl (exec_andZpx b),
    .of_exec rfl (exec_andAby n), .of_exec rfl (exec_andAbx n), .of_exec rfl (exec_oraIzx b),
    .of_exec rfl (exec_oraZp b), .of_exec rfl (exec_oraImm b), .of_exec rfl (exec_oraAbs n),
    .of_exec rfl (exec_oraIzy b), .of_exec rfl (exec_oraZpx b), .of_exec rfl (exec_oraAby n),
    .of_exec rfl (exec_oraAbx n), .of_exec rfl (exec_eorIzx b), .of_exec rfl (exec_eorZp b),
    .of_exec rfl (exec_eorImm b), .of_exec rfl (exec_eorAbs n), .of_exec rfl (exec_eorIzy b),
    .of_exec rfl (exec_eorZpx b), .of_exec rfl (exec_eorAby n), .of_exec rfl (exec_eorAbx n),
    .of_exec rfl (exec_bitZp b), .of_exec rfl (exec_bitAbs n)⟩

/-- Settles O18: a comparison is the subtraction over numbers, from the register its opcode names. -/
theorem compareInstructions : Obligations.CompareInstructions := by
  intro b n
  rw [← compareCore_eq_compared]
  exact ⟨.of_exec rfl (exec_cmpIzx b), .of_exec rfl (exec_cmpZp b), .of_exec rfl (exec_cmpImm b),
    .of_exec rfl (exec_cmpAbs n), .of_exec rfl (exec_cmpIzy b), .of_exec rfl (exec_cmpZpx b),
    .of_exec rfl (exec_cmpAby n), .of_exec rfl (exec_cmpAbx n), .of_exec rfl (exec_cpxImm b),
    .of_exec rfl (exec_cpxZp b), .of_exec rfl (exec_cpxAbs n), .of_exec rfl (exec_cpyImm b),
    .of_exec rfl (exec_cpyZp b), .of_exec rfl (exec_cpyAbs n)⟩

/-- Settles O19: every form adds by `AddCore`, which is the rule's addition for the session's `DECIMAL_ENABLED`. -/
theorem addInstruction : Obligations.AddInstruction := by
  intro b n
  simp only [← addCore_eq_added]
  exact ⟨.of_exec rfl (exec_adcIzx b), .of_exec rfl (exec_adcZp b), .of_exec rfl (exec_adcImm b),
    .of_exec rfl (exec_adcAbs n), .of_exec rfl (exec_adcIzy b), .of_exec rfl (exec_adcZpx b),
    .of_exec rfl (exec_adcAby n), .of_exec rfl (exec_adcAbx n)⟩

/-- Settles O20: every form, 0xEB among them, subtracts by `SubCore`, which is the rule's subtraction for the session's
`DECIMAL_ENABLED`. -/
theorem subtractInstruction : Obligations.SubtractInstruction := by
  intro b n
  simp only [← subCore_eq_subtracted]
  exact ⟨.of_exec rfl (exec_sbcIzx b), .of_exec rfl (exec_sbcZp b), .of_exec rfl (exec_sbcImm b),
    .of_exec rfl (exec_sbcImmEB b), .of_exec rfl (exec_sbcAbs n), .of_exec rfl (exec_sbcIzy b),
    .of_exec rfl (exec_sbcZpx b), .of_exec rfl (exec_sbcAby n), .of_exec rfl (exec_sbcAbx n)⟩

/-! ## Decimal arithmetic (rules R158 and R160) -/

/-- Both digits of the byte are decimal. -/
def IsBcd (v : Byte) : Prop := v.toNat / 16 ≤ 9 ∧ v.toNat % 16 ≤ 9

/-- The number that the two digits of the byte stand for. -/
def bcdValue (v : Byte) : Int := 10 * (v.toNat / 16 : Nat) + (v.toNat % 16 : Nat)

/-- The last decimal digit of `n` in the low half of a byte, the tens of `n` above it: what both cores have of the
decimal sum or difference `n` once the low digit is corrected. -/
def bcdOf (n : Int) : Int := 16 * (n / 10) + n % 10

theorem bcdOf_add_hundred (n : Int) : bcdOf (n + 100) = bcdOf n + 160 := by
  unfold bcdOf
  omega

theorem bcdOf_nonneg_iff (n : Int) : 0 ≤ bcdOf n ↔ 0 ≤ n := by
  unfold bcdOf
  omega

theorem bcdOf_lt_iff (n : Int) : bcdOf n < 160 ↔ n < 100 := by
  unfold bcdOf
  omega

/-- The byte that holds the two digits of `n % 100` reads back as that number. -/
theorem isBcd_and_bcdValue_of_toNat {v : Byte} {n : Int} (h : (v.toNat : Int) = bcdOf (n % 100)) :
    IsBcd v ∧ bcdValue v = n % 100 := by
  have hlo := Int.emod_nonneg n (b := 100) (by decide)
  have hhi := Int.emod_lt_of_pos n (b := 100) (by decide)
  unfold IsBcd bcdValue
  unfold bcdOf at h
  omega

/-- The correction of a sum's high digit: a hundred or more becomes 256 more than the digits without the hundred, and
the byte leaves it out. -/
theorem bcdOf_corrected_sum {n : Int} (hlo : 0 ≤ n) (hhi : n < 200) :
    (if bcdOf n < 160 then bcdOf n else bcdOf n + 96) % 256 = bcdOf (n % 100) := by
  have hpos := (bcdOf_nonneg_iff n).2 hlo
  have hlt := bcdOf_lt_iff n
  by_cases hn : n < 100
  · rw [show n % 100 = n by omega]
    omega
  · have hhundred := bcdOf_add_hundred (n - 100)
    have hrest := bcdOf_lt_iff (n - 100)
    rw [Int.sub_add_cancel] at hhundred
    rw [show n % 100 = n - 100 by omega]
    omega

/-- The correction of a difference's high digit: below zero it becomes 256 less than the digits of a hundred more, which
the byte adds. -/
theorem bcdOf_corrected_difference {n : Int} (hlo : -100 ≤ n) (hhi : n < 100) :
    (if bcdOf n < 0 then bcdOf n - 96 else bcdOf n) % 256 = bcdOf (n % 100) := by
  have hneg := bcdOf_nonneg_iff n
  have hlt := bcdOf_lt_iff n
  by_cases hn : 0 ≤ n
  · rw [show n % 100 = n by omega]
    omega
  · have hpos := bcdOf_nonneg_iff (n + 100)
    rw [bcdOf_add_hundred] at hpos
    rw [show n % 100 = n + 100 by omega, bcdOf_add_hundred]
    omega

theorem bcdValue_bounds {v : Byte} (h : IsBcd v) : 0 ≤ bcdValue v ∧ bcdValue v ≤ 99 := by
  unfold IsBcd at h
  unfold bcdValue
  omega

/-! ### Addition -/

/-- The correction of the low digit carries at ten. -/
theorem decimalPartial_eq_bcdOf {a m : Byte} (ha : IsBcd a) (hm : IsBcd m) (k : Bool) :
    (decimalPartial a.toNat m.toNat k.toNat : Int) = bcdOf (bcdValue a + bcdValue m + k.toNat) := by
  obtain ⟨hahi, halo⟩ := ha
  obtain ⟨hmhi, hmlo⟩ := hm
  have hk := Bool.toNat_le k
  simp only [decimalPartial, bcdOf, bcdValue]
  split <;> omega

theorem addedDecimal_a_toNat {c : Cpu} {m : Byte} (ha : IsBcd c.a) (hm : IsBcd m) :
    ((addedDecimal m c).a.toNat : Int) = bcdOf ((bcdValue c.a + bcdValue m + c.p.c.toNat) % 100) := by
  have hpartial := decimalPartial_eq_bcdOf ha hm c.p.c
  have hk := Bool.toNat_le c.p.c
  have := bcdValue_bounds ha
  have := bcdValue_bounds hm
  rw [← bcdOf_corrected_sum (by omega) (by omega), ← hpartial]
  simp only [addedDecimal, BitVec.toNat_ofNat]
  split <;> split <;> omega

theorem addedDecimal_c_iff {c : Cpu} {m : Byte} (ha : IsBcd c.a) (hm : IsBcd m) :
    (addedDecimal m c).p.c = true ↔ 100 ≤ bcdValue c.a + bcdValue m + c.p.c.toNat := by
  have hpartial := decimalPartial_eq_bcdOf ha hm c.p.c
  have hlt := bcdOf_lt_iff (bcdValue c.a + bcdValue m + c.p.c.toNat)
  simp only [addedDecimal, decide_eq_true_eq]
  split <;> omega

/-! ### Subtraction -/

/-- `t` of rule R160's decimal case before the correction of the high digit. -/
def decimalPartialDifference (a m : Byte) (k : Bool) : Int :=
  let al : Int := (a.toNat % 16 : Nat) - (m.toNat % 16 : Nat) - (if k then 0 else 1)
  (16 * (a.toNat / 16) : Nat) - (16 * (m.toNat / 16) : Nat) + (if al < 0 then (al - 6) % 16 - 16 else al)

theorem decimalSubtracted_eq (a m : Byte) (k : Bool) :
    decimalSubtracted a m k = BitVec.ofInt 8 (if decimalPartialDifference a m k < 0
      then decimalPartialDifference a m k - 96 else decimalPartialDifference a m k) :=
  rfl

theorem borrow_eq (k : Bool) : (if k then (0 : Int) else 1) = 1 - k.toNat := by cases k <;> rfl

/-- The correction of the low digit borrows ten. -/
theorem decimalPartialDifference_eq_bcdOf {a m : Byte} (ha : IsBcd a) (hm : IsBcd m) (k : Bool) :
    decimalPartialDifference a m k = bcdOf (bcdValue a - bcdValue m - (1 - k.toNat)) := by
  obtain ⟨hahi, halo⟩ := ha
  obtain ⟨hmhi, hmlo⟩ := hm
  have hk := Bool.toNat_le k
  simp only [decimalPartialDifference, borrow_eq, bcdOf, bcdValue]
  split <;> omega

theorem decimalSubtracted_toNat {a m : Byte} (ha : IsBcd a) (hm : IsBcd m) (k : Bool) :
    ((decimalSubtracted a m k).toNat : Int) = bcdOf ((bcdValue a - bcdValue m - (1 - k.toNat)) % 100) := by
  have hk := Bool.toNat_le k
  have := bcdValue_bounds ha
  have := bcdValue_bounds hm
  rw [decimalSubtracted_eq, decimalPartialDifference_eq_bcdOf ha hm, BitVec.toNat_ofInt,
    ← bcdOf_corrected_difference (by omega) (by omega)]
  exact Int.toNat_of_nonneg (Int.emod_nonneg _ (by decide))

/-- Decimal digits are ordered as the bytes are, so the binary borrow is the decimal one. -/
theorem difference_nonneg_iff {a m : Byte} (ha : IsBcd a) (hm : IsBcd m) (k : Bool) :
    0 ≤ difference a m k ↔ 0 ≤ bcdValue a - bcdValue m - (1 - k.toNat) := by
  obtain ⟨hahi, halo⟩ := ha
  obtain ⟨hmhi, hmlo⟩ := hm
  have hk := Bool.toNat_le k
  simp only [difference, borrow_eq, bcdValue]
  omega

/-! ### The two cores with `D` set -/

theorem addCore_of_decimal {c : Cpu} (hd : c.p.d = true) (m : Byte) : addCore true m c = addedDecimal m c := by
  simp only [addCore, hd, Bool.and_self, if_true, addDecimal_eq_addedDecimal]

theorem subCore_eq (dec : Bool) : subCore dec = subtracted ⟨dec, .halt⟩ := subCore_eq_subtracted ⟨dec, .halt⟩

theorem subCore_a_of_decimal {c : Cpu} (hd : c.p.d = true) (m : Byte) :
    (subCore true m c).a = decimalSubtracted c.a m c.p.c := by
  rw [subCore_eq]
  exact if_pos ⟨hd, rfl⟩

/-- In either mode the carry is that of the binary difference. -/
theorem subCore_c_iff (dec : Bool) (m : Byte) (c : Cpu) :
    (subCore dec m c).p.c = true ↔ 0 ≤ difference c.a m c.p.c := by
  rw [subCore_eq]
  exact decide_eq_true_iff

/-- Settles O21: on decimal digits both cores leave the digits of the result modulo 100, and their carry is the decimal
one. -/
theorem decimalArithmeticIsDecimal : Obligations.DecimalArithmeticIsDecimal := by
  intro c m ha hm hd sum diff
  obtain ⟨hsumBcd, hsumValue⟩ := isBcd_and_bcdValue_of_toNat (addedDecimal_a_toNat ha hm)
  obtain ⟨hdiffBcd, hdiffValue⟩ := isBcd_and_bcdValue_of_toNat (decimalSubtracted_toNat ha hm c.p.c)
  rw [addCore_of_decimal hd, subCore_a_of_decimal hd, subCore_c_iff]
  exact ⟨hsumBcd, hsumValue, addedDecimal_c_iff ha hm, hdiffBcd, hdiffValue, difference_nonneg_iff ha hm c.p.c⟩

end Sys2Proof.Machine
end

section
/-! PROOFS. The statements about increments, decrements, shifts and rotates (44_incdec_shift): each row is the line of
Laws/Meanings.lean about its constructor, once the rule's numbers are read back as the machine's operations. -/

namespace Sys2Proof.Machine

/-- `setNZ_eq_flagsNZ`, applied and read from the rule's side. -/
theorem withFlagsNZ_eq_setNZ (v : Byte) (c : Cpu) : { c with p := flagsNZ v c.p } = setNZ v c := by
  rw [setNZ_eq_flagsNZ]

/-- The rule shifts in a bit known from the state, so the operation on bytes stands without its byte. -/
theorem leftWith_eq_rotateLeft (k : Bool) : leftWith k = fun m => rotateLeft m k := by
  funext m
  rw [rotateLeft_eq_leftWith]

theorem rightWith_eq_rotateRight (k : Bool) : rightWith k = fun m => rotateRight m k := by
  funext m
  rw [rotateRight_eq_rightWith]

/-- The bit shifted out may go to `C` before or after `Z` and `N` are set. -/
theorem setC_setNZ_comm (f : Bool) (v : Byte) (c : Cpu) : setC f (setNZ v c) = setNZ v (setC f c) := rfl

theorem setC_loadA_comm (f : Bool) (v : Byte) (c : Cpu) : setC f (loadA v c) = loadA v (setC f c) := rfl

/-- Settles O23: plus or minus one on a byte is plus or minus one on its number, modulo 256. -/
theorem incrementDecrementInstructions : Obligations.IncrementDecrementInstructions := by
  intro b n
  simp only [← loadX_eq_gotX, ← loadY_eq_gotY, withFlagsNZ_eq_setNZ, ← add_one_eq_ofNat, ← sub_one_eq_ofInt]
  exact ⟨.of_exec rfl (exec_incZp b), .of_exec rfl (exec_incAbs n), .of_exec rfl (exec_incZpx b),
    .of_exec rfl (exec_incAbx n), .of_exec rfl (exec_decZp b), .of_exec rfl (exec_decAbs n),
    .of_exec rfl (exec_decZpx b), .of_exec rfl (exec_decAbx n),
    .of_exec rfl exec_inxImp, .of_exec rfl exec_inyImp, .of_exec rfl exec_dexImp, .of_exec rfl exec_deyImp⟩

/-- Settles O24: with 0 shifted in, the rule's two operations are the machine's shifts; with the old carry, its
rotates. -/
theorem shiftInstructions : Obligations.ShiftInstructions := by
  intro b n
  rw [← shiftLeft_eq_leftWith, ← shiftRight_eq_rightWith]
  simp only [leftWith_eq_rotateLeft, rightWith_eq_rotateRight, ← bit7_eq_topBit, ← bit0_eq_lowBit,
    ← loadA_eq_gotA, withFlagsNZ_eq_setNZ, ← setC_eq_carry, setC_setNZ_comm, setC_loadA_comm]
  exact ⟨.of_exec rfl (exec_aslZp b), .of_exec rfl exec_aslAcc, .of_exec rfl (exec_aslAbs n),
    .of_exec rfl (exec_aslZpx b), .of_exec rfl (exec_aslAbx n),
    .of_exec rfl (exec_lsrZp b), .of_exec rfl exec_lsrAcc, .of_exec rfl (exec_lsrAbs n),
    .of_exec rfl (exec_lsrZpx b), .of_exec rfl (exec_lsrAbx n),
    .of_exec rfl (exec_rolZp b), .of_exec rfl exec_rolAcc, .of_exec rfl (exec_rolAbs n),
    .of_exec rfl (exec_rolZpx b), .of_exec rfl (exec_rolAbx n),
    .of_exec rfl (exec_rorZp b), .of_exec rfl exec_rorAcc, .of_exec rfl (exec_rorAbs n),
    .of_exec rfl (exec_rorZpx b), .of_exec rfl (exec_rorAbx n)⟩

end Sys2Proof.Machine
end

section
/-! PROOFS. The statements about control flow (45_control): jumps, the subroutine call and its return, and the
conditional branches. The rows are the lines of Laws/Meanings.lean and Laws/Exec.lean about their constructors. -/

namespace Sys2Proof.Machine

/-! ## The byte arithmetic of the pointer and of `S` -/

/-- The address of a pointer's second byte, in the pointer's own page (40_addressing rule R97). -/
theorem loByte_add_one_eq_ofNat (n : Word) : loByte n + 1 = BitVec.ofNat 8 (n.toNat % 256 + 1) := by
  rw [add_one_eq_ofNat, loByte_toNat]

theorem sub_one_sub_one (p : Byte) : p - 1 - 1 = p - 2 := by bv_omega

theorem add_one_add_one (p : Byte) : p + 1 + 1 = p + 2 := BitVec.add_assoc p 1 1

/-! ## Jump, call and return (rules R190, R191, R192) -/

/-- Settles O25: the indirect jump reads its two bytes in the order and page of R97, and the call and the return move
`S` by their two pushes and pulls. -/
theorem jumpAndSubroutineInstructions : Obligations.JumpAndSubroutineInstructions := by
  intro n
  refine ⟨.of_exec rfl (exec_jmpAbs n), .of_exec rfl fun s => ?_, .of_exec rfl fun s => ?_,
    .of_exec rfl fun s => ?_⟩
  · simp only [exec_jmpInd, indirectTarget, readPair, loByte_add_one_eq_ofNat, charge, mapCpu, setPc, spent,
      busRead_cpu]
  · rw [exec_jsr, sub_one_sub_one]
  · simp only [exec_rts, add_one_add_one]

/-- A word stored on the stack, its low byte below its high byte, reads back, also across the wrap of `S`. -/
theorem stackWord_of_stored {t : State} {ram : Memory} {p : Byte} {w : Word} (h : Store.wf ram = true)
    (ht : t.bus.ram = stackStore (p - 1) (loByte w) (stackStore p (hiByte w) ram)) :
    mkWord (stackByte p t) (stackByte (p - 1) t) = w := by
  have hne : p ≠ p - 1 := by bv_omega
  have hlo : stackByte (p - 1) t = loByte w := by
    rw [stackByte, ht, readCell_stackStore (wf_stackStore h), if_pos rfl]
  have hhi : stackByte p t = hiByte w := by
    rw [stackByte, ht, readCell_stackStore (wf_stackStore h), if_neg hne, readCell_stackStore h, if_pos rfl]
  rw [hlo, hhi, mkWord_bytes]

/-- Settles O26: the return pulls the word the call pushed, which is one below the address after the call. -/
theorem rtsReturnsAfterJsr : Obligations.RtsReturnsAfterJsr := by
  intro s t n pc' hram hcall
  rw [exec_jsr] at hcall
  cases hcall
  refine ⟨_, exec_rts _, ?_, ?_, rfl, rfl, rfl, rfl⟩
  · simp only [spent, BitVec.sub_add_cancel]
    rw [stackWord_of_stored hram rfl, BitVec.sub_add_cancel]
  · simp only [spent, BitVec.sub_add_cancel]

/-! ## Conditional branches (rules R193 to R201) -/

/-- A branch's row needs its condition alone: target, page test and cost are `branch_eq_branches`. -/
theorem Means.of_branch {bytes : List Byte} {i : Instr} {taken : State → Bool} {d : Byte} (hbytes : encode i = bytes)
    (hexec : ∀ s, exec i s = branch (taken s) d s) : Means bytes i fun s => branches (taken s) d s :=
  .of_exec hbytes fun s => (hexec s).trans (branch_eq_branches _ _ _)

/-- Settles O27: each constructor branches on its flag. -/
theorem branchInstructions : Obligations.BranchInstructions := by
  intro d
  exact ⟨.of_branch rfl (exec_bccRel d), .of_branch rfl (exec_bcsRel d), .of_branch rfl (exec_beqRel d),
    .of_branch rfl (exec_bneRel d), .of_branch rfl (exec_bmiRel d), .of_branch rfl (exec_bplRel d),
    .of_branch rfl (exec_bvcRel d), .of_branch rfl (exec_bvsRel d)⟩

end Sys2Proof.Machine
end

section
/-! PROOFS. The statements about flags and system control (46_system_flags): the flag instructions, the documented NOP,
BRK in both modes, and the return from an interrupt. -/

namespace Sys2Proof.Machine

/-! ## One flag, or nothing (rules R210 to R217) -/

/-- Settles O28: each meaning sets its one flag to a constant, and those setters are the rule's record updates by
definition. -/
theorem flagAndNopInstructions : Obligations.FlagAndNopInstructions :=
  ⟨.of_exec rfl exec_clcImp, .of_exec rfl exec_secImp, .of_exec rfl exec_cliImp, .of_exec rfl exec_seiImp,
    .of_exec rfl exec_cldImp, .of_exec rfl exec_sedImp, .of_exec rfl exec_clvImp, .of_exec rfl exec_nopImp⟩

/-! ## Interrupt entry (60_exceptions rule R449) -/

theorem sub_two_sub_one (p : Byte) : p - 2 - 1 = p - 3 := by bv_omega

theorem add_two_add_one (p : Byte) : p + 2 + 1 = p + 3 := BitVec.add_assoc p 2 1

/-- The entry's pushes, with `S` in one subtraction and the status as a number. -/
theorem entered_eq_afterPushes : entered = afterPushes := by
  funext b s
  simp only [entered, afterPushes, sub_one_sub_one, sub_two_sub_one, pack_eq_packed]

/-- The pushes store in RAM alone: above it everything reads the same. -/
theorem peek_afterPushes {a : Word} (ha : ¬a < 0x2000) (b : Bool) (s : State) :
    peek a (afterPushes b s) = peek a s := by
  simp only [peek, if_neg ha, afterPushes]

/-- A vector above RAM is read after the pushes as it stood before them, so the entry goes to the word it holds. -/
theorem interruptEntry_eq_entryTo {vec target : Word} {s : State} (b : Bool) (hlo : ¬vec < 0x2000)
    (hhi : ¬vec + 1 < 0x2000) (h : VectorHolds vec target s) : interruptEntry vec b s = entryTo target b s := by
  obtain ⟨hvec, hvec1⟩ := h
  rw [← peek_afterPushes hlo b] at hvec
  rw [← peek_afterPushes hhi b] at hvec1
  have hread : memRead16 vec (afterPushes b s) = { val := target, st := afterPushes b s } := by
    rw [memRead16_peek hvec hvec1, mkWord_bytes]
  rw [interruptEntry_eq, entered_eq_afterPushes, hread, entryTo]

/-! ## BRK and RTI (rules R218, R219, R220) -/

theorem brk_of_halt {s : State} (hm : s.params.brkMode = .halt) :
    brk s = .next { s with cpu := stopped (s.cpu.pc - 1) (.brk (s.cpu.pc - 1)) s.cpu } := by
  rw [brk, hm]
  rfl

theorem brk_of_interrupt {s : State} (hm : s.params.brkMode = .interrupt) :
    brk s = .next (charge 7 (interruptEntry vecIrq true (skip 1 s))) := by
  rw [brk, hm]
  rfl

/-- Settles O29: BRK halts, or enters the interrupt from the address after the byte it skips; RTI's row is `exec_rti`
with the three pulls of `S` added up. -/
theorem breakAndReturnFromInterrupt : Obligations.BreakAndReturnFromInterrupt := by
  refine ⟨rfl, decode_encode .brkImp, fun s hm => ?_, fun s target hm hvec => ?_, .of_exec rfl fun s => ?_⟩
  · rw [exec_brkImp, brk_of_halt hm]
  · have hskip : VectorHolds vecIrq target (skip 1 s) := hvec
    rw [exec_brkImp, brk_of_interrupt hm, interruptEntry_eq_entryTo true (by decide) (by decide) hskip]
    rfl
  · simp only [exec_rti, add_one_add_one, add_two_add_one, unpack_eq_unpacked]

end Sys2Proof.Machine
end

section
/-! PROOFS. The statements about the undocumented instructions (47_undocumented): each row is the line of
Laws/Meanings.lean about its constructor, once the rule's numbers are read back as the machine's operations. -/

namespace Sys2Proof.Machine

/-! ## The NOPs (rule R230) -/

/-- Settles O30: a NOP with an operand is a read whose value changes no register, and one without leaves the CPU as it
is. -/
theorem undocumentedNops : Obligations.UndocumentedNops := by
  intro b n
  exact ⟨.of_exec rfl (exec_nopZp04 b), .of_exec rfl (exec_nopAbs n), .of_exec rfl (exec_nopZpx14 b),
    .of_exec rfl exec_nopImp1A, .of_exec rfl (exec_nopAbx1C n), .of_exec rfl (exec_nopZpx34 b),
    .of_exec rfl exec_nopImp3A, .of_exec rfl (exec_nopAbx3C n), .of_exec rfl (exec_nopZp44 b),
    .of_exec rfl (exec_nopZpx54 b), .of_exec rfl exec_nopImp5A, .of_exec rfl (exec_nopAbx5C n),
    .of_exec rfl (exec_nopZp64 b), .of_exec rfl (exec_nopZpx74 b), .of_exec rfl exec_nopImp7A,
    .of_exec rfl (exec_nopAbx7C n), .of_exec rfl (exec_nopImm80 b), .of_exec rfl (exec_nopImm82 b),
    .of_exec rfl (exec_nopImm89 b), .of_exec rfl (exec_nopImmC2 b), .of_exec rfl (exec_nopZpxD4 b),
    .of_exec rfl exec_nopImpDA, .of_exec rfl (exec_nopAbxDC n), .of_exec rfl (exec_nopImmE2 b),
    .of_exec rfl (exec_nopZpxF4 b), .of_exec rfl exec_nopImpFA, .of_exec rfl (exec_nopAbxFC n)⟩

/-! ## Two documented operations in one (rules R231 to R238, R244) -/

/-- Settles O31: LAX and LAS load by `A`'s load, and the byte that DCP and ISC write goes to the machine's comparison
and subtraction. -/
theorem laxSaxLasDcpIscInstructions : Obligations.LaxSaxLasDcpIscInstructions := by
  intro b n
  simp only [← loadA_eq_gotA, ← sub_one_eq_ofInt, ← add_one_eq_ofNat, ← compareCore_eq_compared,
    ← subCore_eq_subtracted]
  exact ⟨.of_exec rfl (exec_laxIzx b), .of_exec rfl (exec_laxZp b), .of_exec rfl (exec_laxAbs n),
    .of_exec rfl (exec_laxIzy b), .of_exec rfl (exec_laxZpy b), .of_exec rfl (exec_laxAby n),
    .of_exec rfl (exec_saxIzx b), .of_exec rfl (exec_saxZp b), .of_exec rfl (exec_saxAbs n),
    .of_exec rfl (exec_saxZpy b),
    .of_exec rfl (exec_lasAby n),
    .of_exec rfl (exec_dcpIzx b), .of_exec rfl (exec_dcpZp b), .of_exec rfl (exec_dcpAbs n),
    .of_exec rfl (exec_dcpIzy b), .of_exec rfl (exec_dcpZpx b), .of_exec rfl (exec_dcpAby n),
    .of_exec rfl (exec_dcpAbx n),
    .of_exec rfl (exec_iscIzx b), .of_exec rfl (exec_iscZp b), .of_exec rfl (exec_iscAbs n),
    .of_exec rfl (exec_iscIzy b), .of_exec rfl (exec_iscZpx b), .of_exec rfl (exec_iscAby n),
    .of_exec rfl (exec_iscAbx n)⟩

/-- Settles O32: the byte written is the machine's shift or rotate of the byte read, and `C` takes the bit shifted out
before the combination, so that RRA's addition sees it. -/
theorem shiftAndCombineInstructions : Obligations.ShiftAndCombineInstructions := by
  intro b n
  rw [← shiftLeft_eq_leftWith, ← shiftRight_eq_rightWith]
  simp only [leftWith_eq_rotateLeft, rightWith_eq_rotateRight, ← bit7_eq_topBit, ← bit0_eq_lowBit,
    ← loadA_eq_gotA, ← setC_eq_carry, setC_loadA_comm, ← addCore_eq_added]
  exact ⟨.of_exec rfl (exec_sloIzx b), .of_exec rfl (exec_sloZp b), .of_exec rfl (exec_sloAbs n),
    .of_exec rfl (exec_sloIzy b), .of_exec rfl (exec_sloZpx b), .of_exec rfl (exec_sloAby n),
    .of_exec rfl (exec_sloAbx n),
    .of_exec rfl (exec_rlaIzx b), .of_exec rfl (exec_rlaZp b), .of_exec rfl (exec_rlaAbs n),
    .of_exec rfl (exec_rlaIzy b), .of_exec rfl (exec_rlaZpx b), .of_exec rfl (exec_rlaAby n),
    .of_exec rfl (exec_rlaAbx n),
    .of_exec rfl (exec_sreIzx b), .of_exec rfl (exec_sreZp b), .of_exec rfl (exec_sreAbs n),
    .of_exec rfl (exec_sreIzy b), .of_exec rfl (exec_sreZpx b), .of_exec rfl (exec_sreAby n),
    .of_exec rfl (exec_sreAbx n),
    .of_exec rfl (exec_rraIzx b), .of_exec rfl (exec_rraZp b), .of_exec rfl (exec_rraAbs n),
    .of_exec rfl (exec_rraIzy b), .of_exec rfl (exec_rraZpx b), .of_exec rfl (exec_rraAby n),
    .of_exec rfl (exec_rraAbx n)⟩

/-! ## The immediate combinations (rules R239 to R242) -/

/-- ANC over numbers (rule R239): `C` is a copy of `N`. -/
theorem ancCore_eq_carry_gotA (m : Byte) (c : Cpu) :
    ancCore m c = carry (topBit (c.a &&& m)) (gotA (c.a &&& m) c) := by
  rw [ancCore, setC_eq_carry, bit7_eq_topBit, loadA_eq_gotA]

/-- ALR over numbers (rule R240): the bit shifted out goes to `C`, before or after the load. -/
theorem alrCore_eq_carry_gotA (m : Byte) (c : Cpu) :
    alrCore m c = carry (lowBit (c.a &&& m)) (gotA (rightWith false (c.a &&& m)) c) := by
  rw [alrCore, ← setC_loadA_comm, setC_eq_carry, bit0_eq_lowBit, shiftRight_eq_rightWith, loadA_eq_gotA]

/-- AXS over numbers (rule R242): the flags are the comparison's. -/
theorem axsCore_eq_compared (m : Byte) (c : Cpu) :
    axsCore m c = { compared (c.a &&& c.x) m c with x := (c.a &&& c.x) - m } := by
  rw [axsCore, compareCore_eq_compared, setX]

/-- Settles O33: each combination over numbers, ARR for the session's `DECIMAL_ENABLED`. -/
theorem immediateCombinations : Obligations.ImmediateCombinations := by
  intro b
  simp only [← ancCore_eq_carry_gotA, ← alrCore_eq_carry_gotA, ← arrCore_eq_arrLeaves, ← axsCore_eq_compared]
  exact ⟨.of_exec rfl (exec_ancImm0B b), .of_exec rfl (exec_ancImm2B b), .of_exec rfl (exec_alrImm b),
    .of_exec rfl (exec_arrImm b), .of_exec rfl (exec_axsImm b)⟩

/-! ## The opcodes that raise HALT (rules R245 to R251) -/

/-- Raising HALT for an opcode stops the CPU at the opcode's byte, one before `PC`. -/
theorem haltIllegal_eq (opcode : Byte) (s : State) :
    haltIllegal opcode s =
      .next { s with cpu := stopped (s.cpu.pc - 1) (.illegalOpcode (s.cpu.pc - 1) opcode) s.cpu } :=
  rfl

/-- Settles O34: each constructor raises HALT with its own opcode byte. -/
theorem haltingOpcodes : Obligations.HaltingOpcodes := by
  intro b n
  simp only [← haltIllegal_eq]
  exact ⟨.of_exec rfl exec_jamImp02, .of_exec rfl exec_jamImp12, .of_exec rfl exec_jamImp22,
    .of_exec rfl exec_jamImp32, .of_exec rfl exec_jamImp42, .of_exec rfl exec_jamImp52,
    .of_exec rfl exec_jamImp62, .of_exec rfl exec_jamImp72, .of_exec rfl exec_jamImp92,
    .of_exec rfl exec_jamImpB2, .of_exec rfl exec_jamImpD2, .of_exec rfl exec_jamImpF2,
    .of_exec rfl (exec_xaaImm b), .of_exec rfl (exec_lxaImm b), .of_exec rfl (exec_shaIzy b),
    .of_exec rfl (exec_shaAby n), .of_exec rfl (exec_shyAbx n), .of_exec rfl (exec_shxAby n),
    .of_exec rfl (exec_tasAby n)⟩

end Sys2Proof.Machine
end

section
/-! PROOFS. The statements about the bus (50_bus): RAM and its images, which device an address selects, and the
controller ports' serial reads. -/

namespace Sys2Proof.Machine

/-! ## RAM (50_bus rule R302) -/

/-- Settles O44: both accesses are the RAM's, whose cell is the address modulo 2048. -/
theorem ramReadsBackWhatWasWritten : Obligations.RamReadsBackWhatWasWritten := by
  intro s a b v hwf ha hb
  have ha' : a < 0x2000 := ha
  have hb' : b < 0x2000 := hb
  refine ⟨?_, ?_, ?_⟩
  · simp only [busWrite_ram ha', busRead_ram hb', readCell_writeCell hwf, ramIndex_eq_mod, eq_comm]
  · rw [busRead_ram hb']
  · rw [busWrite_ram ha', ramIndex_eq_mod]

/-! ## One device for each address (50_bus rule R300) -/

theorem busRead_ppu {a : Word} (h0 : ¬a < 0x2000) (h : a < 0x4000) (s : State) : busRead a s = ppuRegRead a s :=
  (if_neg h0).trans (if_pos h)

theorem busWrite_ppu {a : Word} (h0 : ¬a < 0x2000) (h : a < 0x4000) (v : Byte) (s : State) :
    busWrite a v s = ppuRegWrite a v s :=
  (if_neg h0).trans (if_pos h)

theorem busRead_port1 (s : State) : busRead 0x4016 s = port1Read s := rfl

theorem busRead_port2 (s : State) : busRead 0x4017 s = port2Read s := rfl

theorem busWrite_port1 (v : Byte) (s : State) : busWrite 0x4016 v s = { s with bus := strobeWrite v s.bus } := rfl

theorem busWrite_port2 (v : Byte) (s : State) : busWrite 0x4017 v s = s := rfl

/-- From 0x4018 up, and from 0x4000 to 0x4015, a write is the cartridge's. -/
theorem busWrite_cart_range {a : Word} (h : ¬a < 0x4000) (h1 : a ≠ 0x4016) (h2 : a ≠ 0x4017) (v : Byte) (s : State) :
    busWrite a v s = { s with cart := cartCpuWrite s.cart a v } := by
  have h0 : ¬a < 0x2000 := fun hlt => h (BitVec.lt_trans hlt (by decide))
  exact (if_neg h0).trans ((if_neg h).trans ((if_neg h1).trans (if_neg h2)))

/-- Below 0x8000 the cartridge takes no write (52_cartridge_sync rules R405, R409). -/
theorem cartCpuWrite_of_lt {a : Word} (h : a < 0x8000) (c : Cartridge) (v : Byte) : cartCpuWrite c a v = c := by
  unfold cartCpuWrite
  split
  · rfl
  · exact if_pos h

/-- A write through the cartridge can change its bank register only. -/
theorem cartCpuWrite_eq (c : Cartridge) (a : Word) (v : Byte) : ∃ k, cartCpuWrite c a v = { c with bank := k } := by
  unfold cartCpuWrite
  split
  · exact ⟨c.bank, rfl⟩
  split
  · exact ⟨c.bank, rfl⟩
  · exact ⟨v, rfl⟩

/-- An address the cartridge maps nothing at reads as open bus (50_bus rule R308). -/
theorem busRead_open {a : Word} (h : ¬a < 0x4000) (h1 : a ≠ 0x4016) (h2 : a ≠ 0x4017) (h8 : a < 0x8000) (s : State) :
    busRead a s = openBusRead a s := by
  rw [busRead_cart_range h h1 h2, cartCpuRead, prgIndex_none h8, Option.map_none]

theorem busRead_prg_st {a : Word} (h8 : ¬a < 0x8000) (s : State) : (busRead a s).st = s := by
  have h2 : ¬a < 0x2000 := fun hlt => h8 (BitVec.lt_trans hlt (by decide))
  obtain ⟨k, hk⟩ := prgIndex_some (c := s.cart) h8
  have hp : peek a s = some (readCell s.cart.prg k) := by rw [peek, if_neg h2, cartCpuRead, hk, Option.map_some]
  rw [busRead_peek hp]

/-- Settles O45, range by range: what the device selected there can change. -/
theorem busRoutesEachAddressToOneDevice : Obligations.BusRoutesEachAddressToOneDevice := by
  intro s a v
  refine ⟨busRead_cpu a s, busWrite_cpu a v s, ?ppu, ?port1, ?port2, ?openBus, ?prg⟩
  case ppu =>
    intro h2 h4
    have h0 : ¬a < 0x2000 := Nat.not_lt.mpr h2
    rw [busRead_ppu h0 h4, busWrite_ppu h0 h4]
    exact ⟨ppuRegRead_st a s, ppuRegWrite_st a v s⟩
  case port1 =>
    rintro rfl
    obtain ⟨h, r1, r2, e⟩ := strobeWrite_eq v s.bus
    exact ⟨port1Read_st s, h, r1, r2, by rw [busWrite_port1, e]⟩
  case port2 =>
    rintro rfl
    exact ⟨port2Read_st s, busWrite_port2 v s⟩
  case openBus =>
    intro h4 h8 h1 h2
    have h4' : ¬a < 0x4000 := Nat.not_lt.mpr h4
    exact ⟨busRead_open h4' h1 h2 h8 s, by rw [busWrite_cart_range h4' h1 h2, cartCpuWrite_of_lt h8]⟩
  case prg =>
    intro h8
    have h8' : ¬a < 0x8000 := Nat.not_lt.mpr h8
    have h4 : ¬a < 0x4000 := fun hlt => h8' (BitVec.lt_trans hlt (by decide))
    have h1 : a ≠ 0x4016 := by rintro rfl; exact h8' (by decide)
    have h2 : a ≠ 0x4017 := by rintro rfl; exact h8' (by decide)
    obtain ⟨k, e⟩ := cartCpuWrite_eq s.cart a v
    exact ⟨busRead_prg_st h8' s, k, by rw [busWrite_cart_range h4 h1 h2, e]⟩

/-! ## The controller ports (50_bus rules R304, R305) -/

theorem serialByte_eq (b : Byte) : serialByte b = if b.getLsbD 0 then 1 else 0 := by
  have h : b.extractLsb' 0 1 = BitVec.ofBool (b.getLsbD 0) := by
    ext i hi
    obtain rfl : i = 0 := by omega
    simp
  rw [serialByte, h]
  cases b.getLsbD 0 <;> rfl

/-- A read moves each bit one place down, and a one in at the top. -/
theorem getLsbD_shiftOut (b : Byte) {i : Nat} (hi : i < 8) :
    (shiftOut b).getLsbD i = (decide (8 ≤ i + 1) || b.getLsbD (i + 1)) := by
  have htop : ∀ j < 8, (0x80 : Byte).getLsbD j = decide (8 ≤ j + 1) := by decide
  rw [shiftOut, BitVec.getLsbD_or, BitVec.getLsbD_ushiftRight, htop i hi, Nat.add_comm, Bool.or_comm]

/-- The bit that stands lowest after `k` reads: bit `k` of the byte, and a one when its eight bits are out. -/
theorem getLsbD_iterate_shiftOut (k : Nat) (b : Byte) :
    (shiftOut^[k] b).getLsbD 0 = (decide (8 ≤ k) || b.getLsbD k) := by
  induction k generalizing b with
  | zero => rfl
  | succ k ih =>
    rw [Function.iterate_succ_apply, ih]
    by_cases hk : k < 8
    · rw [getLsbD_shiftOut b hk, decide_eq_false (Nat.not_le.mpr hk), Bool.false_or]
    · have h8 : 8 ≤ k := Nat.not_lt.mp hk
      rw [decide_eq_true h8, decide_eq_true (Nat.le_succ_of_le h8), Bool.true_or, Bool.true_or]

/-- The byte a port with register `b` gives after `k` reads. -/
theorem serialByte_iterate_shiftOut (b : Byte) (k : Nat) :
    serialByte (shiftOut^[k] b) = if k < 8 then (if b.getLsbD k then 1 else 0) else 1 := by
  rw [serialByte_eq, getLsbD_iterate_shiftOut]
  by_cases hk : k < 8
  · rw [decide_eq_false (Nat.not_le.mpr hk), Bool.false_or, if_pos hk]
  · rw [decide_eq_true (Nat.not_lt.mp hk), Bool.true_or, if_pos rfl, if_neg hk]

/-! Reads leave the strobe and the snapshots. -/

@[simp] theorem busRead_strobe (a : Word) (s : State) : (busRead a s).st.bus.strobe = s.bus.strobe := by
  obtain ⟨_, _, _, _, h⟩ := busRead_st a s
  rw [h]

@[simp] theorem afterReads_strobe (a : Word) (k : Nat) (s : State) : (afterReads a k s).bus.strobe = s.bus.strobe := by
  induction k with
  | zero => rfl
  | succ k ih => rw [afterReads, busRead_strobe, ih]

theorem afterReads_sameSession (a : Word) (k : Nat) (s : State) : SameSession s (afterReads a k s) := by
  induction k with
  | zero => exact .refl s
  | succ k ih => exact ih.trans (busRead_sameSession a _)

/-! While the strobe is high a port gives its snapshot's lowest bit; while it is low, its register's, and shifts it. -/

theorem port1Read_high {s : State} (h : s.bus.strobe = true) : (port1Read s).val = serialByte s.bus.buttons1 := by
  rw [port1Read, if_pos h]

theorem port2Read_high {s : State} (h : s.bus.strobe = true) : (port2Read s).val = serialByte s.bus.buttons2 := by
  rw [port2Read, if_pos h]

theorem port1Read_low {s : State} (h : s.bus.strobe = false) :
    port1Read s =
      { val := serialByte s.bus.shift1, st := { s with bus := { s.bus with shift1 := shiftOut s.bus.shift1 } } } :=
  if_neg (Bool.eq_false_iff.mp h)

theorem port2Read_low {s : State} (h : s.bus.strobe = false) :
    port2Read s =
      { val := serialByte s.bus.shift2, st := { s with bus := { s.bus with shift2 := shiftOut s.bus.shift2 } } } :=
  if_neg (Bool.eq_false_iff.mp h)

section Reads

variable {s : State} {k : Nat}

theorem afterReads_shift1 (h : s.bus.strobe = false) :
    (afterReads 0x4016 k s).bus.shift1 = shiftOut^[k] s.bus.shift1 := by
  induction k with
  | zero => rfl
  | succ k ih =>
    have hk := (afterReads_strobe 0x4016 k s).trans h
    rw [afterReads, busRead_port1, port1Read_low hk, ih, Function.iterate_succ_apply']

theorem afterReads_shift2 (h : s.bus.strobe = false) :
    (afterReads 0x4017 k s).bus.shift2 = shiftOut^[k] s.bus.shift2 := by
  induction k with
  | zero => rfl
  | succ k ih =>
    have hk := (afterReads_strobe 0x4017 k s).trans h
    rw [afterReads, busRead_port2, port2Read_low hk, ih, Function.iterate_succ_apply']

theorem port1_serial (h : s.bus.strobe = false) :
    (busRead 0x4016 (afterReads 0x4016 k s)).val = serialByte (shiftOut^[k] s.bus.shift1) := by
  rw [busRead_port1, port1Read_low ((afterReads_strobe _ k s).trans h), afterReads_shift1 h]

theorem port2_serial (h : s.bus.strobe = false) :
    (busRead 0x4017 (afterReads 0x4017 k s)).val = serialByte (shiftOut^[k] s.bus.shift2) := by
  rw [busRead_port2, port2Read_low ((afterReads_strobe _ k s).trans h), afterReads_shift2 h]

theorem port1_held (h : s.bus.strobe = true) :
    (busRead 0x4016 (afterReads 0x4016 k s)).val = serialByte s.bus.buttons1 := by
  rw [busRead_port1, port1Read_high ((afterReads_strobe _ k s).trans h), (afterReads_sameSession _ k s).buttons1]

theorem port2_held (h : s.bus.strobe = true) :
    (busRead 0x4017 (afterReads 0x4017 k s)).val = serialByte s.bus.buttons2 := by
  rw [busRead_port2, port2Read_high ((afterReads_strobe _ k s).trans h), (afterReads_sameSession _ k s).buttons2]

end Reads

theorem strobeWrite_high {v : Byte} (h : v.getLsbD 0 = true) (b : Bus) :
    strobeWrite v b = { b with strobe := true, shift1 := b.buttons1, shift2 := b.buttons2 } :=
  if_pos h

theorem strobeWrite_low {v : Byte} (h : v.getLsbD 0 = false) (b : Bus) : strobeWrite v b = { b with strobe := false } :=
  if_neg (Bool.eq_false_iff.mp h)

/-- Settles O46: the first write loads the snapshots and holds the strobe, the second releases it, and from there the
registers shift. -/
theorem controllerShiftsOutTheSnapshot : Obligations.ControllerShiftsOutTheSnapshot := by
  intro s hi lo k hhi hlo high low
  have hhigh : high.bus = { s.bus with strobe := true, shift1 := s.bus.buttons1, shift2 := s.bus.buttons2 } :=
    strobeWrite_high hhi s.bus
  have hlow : low.bus = { high.bus with strobe := false } := strobeWrite_low hlo high.bus
  rw [hhigh] at hlow
  refine ⟨?_, ?_, ?_, ?_⟩
  · rw [port1_serial (by rw [hlow]), serialByte_iterate_shiftOut, hlow]
  · rw [port2_serial (by rw [hlow]), serialByte_iterate_shiftOut, hlow]
  · rw [port1_held (by rw [hhigh]), serialByte_eq, hhigh]
  · rw [port2_held (by rw [hhigh]), serialByte_eq, hhigh]

end Sys2Proof.Machine
end

section
/-! PROOFS. The invariant (Safety.lean, `State.Inv`): it holds at reset, and a step keeps it. A CPU access and a dot are
looked at once each, as to what they keep of the PPU. -/

namespace Sys2Proof.Machine

/-! ## Indexes of the memories a write can reach -/

theorem nametableIndex_lt (m : Mirroring) (a : Word) : nametableIndex m a < 2048 := by
  unfold nametableIndex
  cases m <;> dsimp only <;> omega

theorem paletteIndex_lt (a : Word) : paletteIndex a < 32 := by
  unfold paletteIndex
  dsimp only
  split <;> omega

theorem chrIndex_lt (a : Word) : (a &&& 0x1FFF).toNat < 8192 := by
  rw [BitVec.toNat_and]
  exact Nat.lt_succ_of_le Nat.and_le_right

theorem cartPpuWrite_inv {c : Cartridge} (h : c.Inv) (a : Word) (d : Byte) : (cartPpuWrite c a d).Inv := by
  unfold cartPpuWrite
  split
  · exact { h with chr := within_writeCell (chrIndex_lt a) h.chr }
  · exact h

theorem cartCpuWrite_inv {c : Cartridge} (h : c.Inv) (a : Word) (v : Byte) : (cartCpuWrite c a v).Inv := by
  obtain ⟨k, e⟩ := cartCpuWrite_eq c a v
  rw [e]
  exact { h with }

/-! ## A CPU access keeps the counters, the sprite lists and the frame of the PPU -/

/-- What a CPU access of the register window keeps of the PPU (51_ppu rules R340 to R348). -/
structure PpuAccess (p q : Ppu) : Prop where
  vram : Store.within 2048 p.vram → Store.within 2048 q.vram
  palette : Store.within 32 p.palette → Store.within 32 q.palette
  oam : Store.within 256 p.oam → Store.within 256 q.oam
  frame : q.frame = p.frame
  scanline : q.scanline = p.scanline
  cycle : q.cycle = p.cycle
  frameReady : q.frameReady = p.frameReady
  lineSprites : q.lineSprites = p.lineSprites
  nextSprites : q.nextSprites = p.nextSprites

theorem PpuAccess.refl (p : Ppu) : PpuAccess p p := ⟨id, id, id, rfl, rfl, rfl, rfl, rfl, rfl⟩

theorem PpuAccess.trans {p q r : Ppu} (h : PpuAccess p q) (h' : PpuAccess q r) : PpuAccess p r where
  vram := h'.vram ∘ h.vram
  palette := h'.palette ∘ h.palette
  oam := h'.oam ∘ h.oam
  frame := h'.frame.trans h.frame
  scanline := h'.scanline.trans h.scanline
  cycle := h'.cycle.trans h.cycle
  frameReady := h'.frameReady.trans h.frameReady
  lineSprites := h'.lineSprites.trans h.lineSprites
  nextSprites := h'.nextSprites.trans h.nextSprites

theorem PpuAccess.inv {p q : Ppu} (h : PpuAccess p q) (hp : p.Inv) : q.Inv where
  vram := h.vram hp.vram
  palette := h.palette hp.palette
  oam := h.oam hp.oam
  frame := h.frame ▸ hp.frame
  scanline := h.scanline ▸ hp.scanline
  cycle := h.cycle ▸ hp.cycle
  lineSprites := h.lineSprites ▸ hp.lineSprites
  nextSprites := h.nextSprites ▸ hp.nextSprites

theorem ppuRegRead_access (a : Word) (s : State) : PpuAccess s.ppu (ppuRegRead a s).st.ppu := by
  unfold ppuRegRead
  split
  · exact { PpuAccess.refl s.ppu with }
  split
  · exact .refl _
  split
  · unfold dataRead
    dsimp only
    split <;> exact { PpuAccess.refl s.ppu with }
  · exact .refl _

theorem ppuWrite_access (a : Word) (d : Byte) (s : State) : PpuAccess s.ppu (ppuWrite a d s).ppu := by
  unfold ppuWrite
  dsimp only
  split
  · exact .refl _
  split
  · exact { PpuAccess.refl s.ppu with vram := within_writeCell (nametableIndex_lt _ _) }
  · exact { PpuAccess.refl s.ppu with palette := within_writeCell (paletteIndex_lt _) }

theorem ppuRegWrite_access (a : Word) (d : Byte) (s : State) : PpuAccess s.ppu (ppuRegWrite a d s).ppu := by
  have r := PpuAccess.refl s.ppu
  unfold ppuRegWrite
  split
  · exact { r with }
  split
  · exact { r with }
  split
  · exact r
  split
  · exact { r with }
  split
  · exact { r with oam := within_writeCell s.ppu.oamAddr.isLt }
  split
  · unfold scrollWrite
    split <;> exact { r with }
  split
  · unfold addrWrite
    split <;> exact { r with }
  · exact { ppuWrite_access (dataAddress s.ppu) d s with }

theorem busRead_access (a : Word) (s : State) : PpuAccess s.ppu (busRead a s).st.ppu := by
  unfold busRead
  split
  · exact .refl _
  split
  · exact ppuRegRead_access a s
  split
  · obtain ⟨r, e⟩ := port1Read_st s
    exact e ▸ .refl _
  split
  · obtain ⟨r, e⟩ := port2Read_st s
    exact e ▸ .refl _
  split <;> exact .refl _

theorem busWrite_access (a : Word) (v : Byte) (s : State) : PpuAccess s.ppu (busWrite a v s).ppu := by
  unfold busWrite
  split
  · exact .refl _
  split
  · exact ppuRegWrite_access a v s
  split
  · exact .refl _
  split <;> exact .refl _

/-- An instruction does to the PPU what CPU accesses do. -/
theorem Touched.access {s t : State} (h : Touched s t) : PpuAccess s.ppu t.ppu := by
  induction h with
  | refl => exact .refl _
  | cpu t c _ ih => exact ih
  | read t a _ ih => exact ih.trans (busRead_access a t)
  | write t a v _ ih => exact ih.trans (busWrite_access a v t)

theorem Touched.frameOut {s t : State} (h : Touched s t) :
    t.frameOut = s.frameOut ∧ t.framesReturned = s.framesReturned := by
  induction h with
  | refl => exact ⟨rfl, rfl⟩
  | cpu t c _ ih => exact ih
  | read t a _ ih => rwa [busRead_frameOut, busRead_framesReturned]
  | write t a v _ ih => rwa [busWrite_frameOut, busWrite_framesReturned]

/-! ## The part of the invariant outside the CPU -/

/-- `State.Inv` without its two clauses about the CPU. -/
structure DevicesInv (s : State) : Prop where
  ram : Store.within 2048 s.bus.ram
  ppu : s.ppu.Inv
  cart : s.cart.Inv
  frameOut : Store.within 61440 s.frameOut

theorem dataWrite_cart_inv {s : State} (h : s.cart.Inv) (d : Byte) : (dataWrite d s).cart.Inv := by
  unfold dataWrite
  rcases ppuWrite_eq (dataAddress s.ppu) d s with ⟨-, e⟩ | ⟨p, e⟩
  · simp only [e]
    exact cartPpuWrite_inv h _ d
  · simp only [e]
    exact h

theorem ppuRegWrite_cart_inv {s : State} (h : s.cart.Inv) (a : Word) (d : Byte) : (ppuRegWrite a d s).cart.Inv := by
  unfold ppuRegWrite
  iterate 7 (split; · exact h)
  exact dataWrite_cart_inv h d

theorem busWrite_cart_inv {s : State} (h : s.cart.Inv) (a : Word) (v : Byte) : (busWrite a v s).cart.Inv := by
  unfold busWrite
  split
  · exact h
  split
  · exact ppuRegWrite_cart_inv h a v
  split
  · exact h
  split
  · exact h
  · exact cartCpuWrite_inv h a v

theorem busWrite_ram_within {s : State} (h : Store.within 2048 s.bus.ram) (a : Word) (v : Byte) :
    Store.within 2048 (busWrite a v s).bus.ram := by
  unfold busWrite
  split
  · exact within_writeCell (ramIndex_lt a) h
  split
  · obtain ⟨p, m, e⟩ := ppuRegWrite_st a v s
    exact e ▸ h
  split
  · obtain ⟨b, r1, r2, e⟩ := strobeWrite_eq v s.bus
    exact e ▸ h
  split <;> exact h

theorem DevicesInv.busRead {s : State} (h : DevicesInv s) (a : Word) : DevicesInv (busRead a s).st where
  ram := (busRead_ram_unchanged a s).symm ▸ h.ram
  ppu := (busRead_access a s).inv h.ppu
  cart := (busRead_cart a s).symm ▸ h.cart
  frameOut := (busRead_frameOut a s).symm ▸ h.frameOut

theorem DevicesInv.busWrite {s : State} (h : DevicesInv s) (a : Word) (v : Byte) : DevicesInv (busWrite a v s) where
  ram := busWrite_ram_within h.ram a v
  ppu := (busWrite_access a v s).inv h.ppu
  cart := busWrite_cart_inv h.cart a v
  frameOut := (busWrite_frameOut a v s).symm ▸ h.frameOut

theorem Touched.devicesInv {s t : State} (h : Touched s t) (hs : DevicesInv s) : DevicesInv t := by
  induction h with
  | refl => exact hs
  | cpu t c _ ih => exact { ih with }
  | read t a _ ih => exact ih.busRead a
  | write t a v _ ih => exact ih.busWrite a v

/-! ## The dots and the delivery of a frame -/

theorem advanceDot_eq (p : Ppu) :
    ∃ line dot ready, advanceDot p = { p with scanline := line, cycle := dot, frameReady := ready } := by
  unfold advanceDot
  split
  · split
    · exact ⟨_, _, _, rfl⟩
    · exact ⟨_, _, p.frameReady, rfl⟩
  · exact ⟨p.scanline, _, p.frameReady, rfl⟩

theorem advanceDot_inv {p : Ppu} (h : p.Inv) : (advanceDot p).Inv := by
  obtain ⟨-, hline, hdot⟩ := advanceDot_number h.scanline h.cycle
  obtain ⟨line, dot, ready, e⟩ := advanceDot_eq p
  rw [e] at hline hdot ⊢
  exact { h with scanline := hline, cycle := hdot }

theorem dotEvents_inv (c : Cartridge) {p : Ppu} (h : p.Inv) : (dotEvents c p).Inv := by
  obtain ⟨_, _, _, _, _, _, _, _, _, e, hnext, hline, hframe⟩ := dotEvents_eq c p
  rw [e]
  exact
    { h with
      frame := hframe h.frame, nextSprites := hnext h.nextSprites
      lineSprites := hline h.lineSprites h.nextSprites }

theorem ppuDots_inv (c : Cartridge) (n : Nat) {p : Ppu} (h : p.Inv) : (ppuDots c n p).Inv :=
  ppuDots_keeps c (fun _ hp => advanceDot_inv (dotEvents_inv c hp)) n p h

theorem DevicesInv.deliverFrame {s : State} (h : DevicesInv s) : DevicesInv (deliverFrame s) := by
  unfold Machine.deliverFrame
  split
  · exact { h with ppu := { h.ppu with }, frameOut := h.ppu.frame }
  · exact h

theorem DevicesInv.afterCpu {s : State} (h : DevicesInv s) (cycles0 : Nat) : DevicesInv (afterCpu cycles0 s) := by
  unfold Machine.afterCpu
  split
  · exact h
  · exact DevicesInv.deliverFrame { h with ppu := ppuDots_inv _ _ h.ppu }

/-! ## The CPU's part -/

/-- The clauses of `State.Inv` about the CPU. -/
structure CpuInv (c : Cpu) : Prop where
  breakFlag : c.p.b = false
  cause : c.halted = c.haltCause.isSome

/-- An instruction leaves `halted` and its cause, or sets both (60_exceptions rule R441). -/
theorem exec_halt {i : Instr} {s t : State} (h : exec i s = .next t) :
    (t.cpu.halted = s.cpu.halted ∧ t.cpu.haltCause = s.cpu.haltCause) ∨
      t.cpu.halted = true ∧ t.cpu.haltCause.isSome = true := by
  have hc : t.cpu = destinationsFrom i.op s.params.brkMode s.cpu t.cpu := exec_changesOnly h
  cases i with
  | jamImp02 | jamImp12 | jamImp22 | jamImp32 | jamImp42 | jamImp52 | jamImp62 | jamImp72 | jamImp92 | jamImpB2
  | jamImpD2 | jamImpF2 | xaaImm | lxaImm | shaIzy | shaAby | shyAbx | shxAby | tasAby =>
    cases h
    exact .inr ⟨rfl, rfl⟩
  | brkImp =>
    rw [exec_brkImp] at h
    cases hm : s.params.brkMode with
    | halt =>
      rw [brk_of_halt hm] at h
      cases h
      exact .inr ⟨rfl, rfl⟩
    | interrupt =>
      rw [brk_of_interrupt hm, interruptEntry_eq] at h
      cases h
      exact .inl ⟨rfl, rfl⟩
  | _ => exact .inl ⟨(congrArg Cpu.halted hc :), (congrArg Cpu.haltCause hc :)⟩

theorem exec_cpuInv {i : Instr} {s t : State} (h : exec i s = .next t) (hs : CpuInv s.cpu) : CpuInv t.cpu := by
  obtain ⟨-, -, -, -, -, -, hb, -⟩ := flagsChangeOnlyInTheirWriters i s t h
  refine ⟨hb.trans hs.breakFlag, ?_⟩
  rcases exec_halt h with ⟨hhalted, hcause⟩ | ⟨hhalted, hcause⟩
  · rw [hhalted, hcause, hs.cause]
  · rw [hhalted, hcause]

/-- A fetch changes no register but `PC`. -/
theorem fetch_cpu (s : State) : ∃ pc, (fetch s).st.cpu = { s.cpu with pc := pc } := by
  have hbyte : ∀ u : State, (fetchByte u).st.cpu = { u.cpu with pc := u.cpu.pc + 1 } := fun u => by
    simp only [fetchByte, mapCpu_cpu, busRead_cpu, setPc]
  rw [fetch]
  dsimp only
  split
  · exact ⟨_, hbyte s⟩
  · unfold fetchOperand
    split
    · exact ⟨_, hbyte s⟩
    · simp only [hbyte]
      exact ⟨_, rfl⟩
    · simp only [hbyte]
      exact ⟨_, rfl⟩

theorem interruptEntry_cpuInv {s : State} (h : CpuInv s.cpu) (vec : Word) (b : Bool) :
    CpuInv (interruptEntry vec b s).cpu := by
  rw [interruptEntry_eq]
  exact ⟨h.breakFlag, h.cause⟩

theorem cpuStep_cpuInv {n i : Bool} {s t : State} (h : cpuStep n i s = .next t) (hs : CpuInv s.cpu) :
    CpuInv t.cpu := by
  unfold cpuStep at h
  split at h
  · cases h
    exact hs
  split at h
  · cases h
    have hclear : CpuInv (mapCpu (fun c => { c with nmiPending := false }) s).cpu := { hs with }
    rw [serviceNmi, charge_cpu]
    exact { interruptEntry_cpuInv hclear vecNmi false with }
  split at h
  · cases h
    rw [serviceIrq, charge_cpu]
    exact { interruptEntry_cpuInv hs vecIrq false with }
  · obtain ⟨pc, e⟩ := fetch_cpu s
    exact exec_cpuInv h (e ▸ ⟨hs.breakFlag, hs.cause⟩)

theorem deliverFrame_cpu (s : State) : (deliverFrame s).cpu = s.cpu := by
  unfold deliverFrame
  split <;> rfl

theorem afterCpu_cpu (cycles0 : Nat) (s : State) : (afterCpu cycles0 s).cpu = s.cpu := by
  unfold afterCpu
  split
  · rfl
  · rw [deliverFrame_cpu, runDots_cpu]

/-! ## The whole state -/

theorem State.inv_iff (s : State) : s.Inv ↔ DevicesInv s ∧ CpuInv s.cpu :=
  ⟨fun h => ⟨{ h with }, { h with }⟩, fun ⟨hd, hc⟩ => { hd, hc with }⟩

/-- Settles O41: the CPU's part keeps the devices' invariant by bus accesses and its own by instructions and entries,
and the dots and the delivery keep the devices'. -/
theorem stepKeepsTheInvariant : Obligations.StepKeepsTheInvariant := by
  intro s t hs h
  rcases step_parts h with ⟨-, rfl⟩ | ⟨u, hu, rfl⟩
  · exact hs
  · obtain ⟨hdev, hcpu⟩ := s.inv_iff.mp hs
    have hclear : DevicesInv (clearNmiRequest s) := { hdev with ppu := { hdev.ppu with } }
    refine (State.inv_iff _).mpr ⟨((cpuStep_touched hu).devicesInv hclear).afterCpu _, ?_⟩
    rw [afterCpu_cpu]
    exact cpuStep_cpuInv hu hcpu

/-! ## Reset (70_reset_and_hazards rules R480, R481) -/

theorem Ppu.reset_inv : Ppu.reset.Inv :=
  ⟨within_nil _, within_nil _, within_nil _, within_nil _, Nat.zero_lt_succ _, Nat.zero_lt_succ _, Nat.zero_le _,
    Nat.zero_le _⟩

theorem Cartridge.blank_inv : Cartridge.blank.Inv :=
  ⟨Nat.le_refl 1, fun _ => Nat.le_succ 1, within_nil _, within_nil _⟩

/-- Settles O42: the memories are empty, the counters zero, and neither `B` nor `halted` is set. -/
theorem resetMeetsTheInvariant : Obligations.ResetMeetsTheInvariant :=
  ⟨within_nil _, Ppu.reset_inv, Cartridge.blank_inv, within_nil _, rfl, rfl⟩

end Sys2Proof.Machine
end

section
/-! PROOFS. The statements about the PPU's dots (51_ppu): the counters and frame-ready, the flag events, sprite
evaluation, the pixel, and the scroll increments. -/

namespace Sys2Proof.Machine

/-! ## The counters (rules R351, R371) -/

/-- The counters stand inside the frame (rule R330). -/
def InFrame (p : Ppu) : Prop := p.scanline < linesPerFrame ∧ p.cycle < dotsPerLine

theorem dotNumber_lt {p : Ppu} (h : InFrame p) : dotNumber p < 89342 := by
  obtain ⟨hs, hc⟩ := h
  simp only [linesPerFrame, dotsPerLine] at hs hc
  simp only [dotNumber, dotsPerLine]
  omega

theorem dotNumber_ppuDot (c : Cartridge) {p : Ppu} (h : InFrame p) :
    dotNumber (ppuDot c p) = (dotNumber p + 1) % 89342 ∧ InFrame (ppuDot c p) :=
  ppuDot_number c h.1 h.2

/-- `n` dots move the dot number up by `n`, modulo a frame. -/
theorem ppuDots_number (c : Cartridge) (n : Nat) {p : Ppu} (h : InFrame p) :
    dotNumber (ppuDots c n p) = (dotNumber p + n) % 89342 ∧ InFrame (ppuDots c n p) := by
  induction n generalizing p with
  | zero =>
    rw [ppuDots, Nat.add_zero, Nat.mod_eq_of_lt (dotNumber_lt h)]
    exact ⟨rfl, h⟩
  | succ n ih =>
    obtain ⟨hnumber, hframe⟩ := dotNumber_ppuDot c h
    obtain ⟨ihnumber, ihframe⟩ := ih hframe
    refine ⟨?_, ihframe⟩
    rw [ppuDots, ihnumber, hnumber, Nat.mod_add_mod, Nat.add_assoc, Nat.add_comm 1]

/-! ## Frame-ready (rules R350, R369) -/

/-- The last dot of a frame, and no other, sets frame-ready. -/
theorem ppuDot_frameReady (c : Cartridge) (p : Ppu) :
    (ppuDot c p).frameReady = (p.frameReady || decide (p.scanline = 261 ∧ p.cycle = 340)) := by
  have same := dotEvents_same c p
  unfold ppuDot advanceDot
  rw [same.scanline, same.cycle, ← same.frameReady]
  simp only [dotsPerLine, linesPerFrame, Nat.reduceEqDiff]
  by_cases hc : p.cycle = 340 <;> by_cases hs : p.scanline = 261 <;> simp [hc, hs]

/-- `n` dots set frame-ready exactly when they reach the end of the frame. -/
theorem ppuDots_frameReady (c : Cartridge) (n : Nat) {p : Ppu} (h : InFrame p) :
    (ppuDots c n p).frameReady = (p.frameReady || decide (89342 ≤ dotNumber p + n)) := by
  induction n generalizing p with
  | zero =>
    have hlt := dotNumber_lt h
    simp [ppuDots, hlt]
  | succ n ih =>
    obtain ⟨hnumber, hframe⟩ := dotNumber_ppuDot c h
    have hlast : p.scanline = 261 ∧ p.cycle = 340 ↔ dotNumber p = 89341 := by
      obtain ⟨hs, hc⟩ := h
      simp only [linesPerFrame, dotsPerLine] at hs hc
      simp only [dotNumber, dotsPerLine]
      omega
    have hlt := dotNumber_lt h
    rw [ppuDots, ih hframe, ppuDot_frameReady, hnumber, Bool.or_assoc, ← Bool.decide_or]
    congr 1
    rw [decide_eq_decide, hlast]
    omega

/-- Settles O52: the dot number counts modulo a frame, and the one dot that sets frame-ready is the frame's last. -/
theorem frameCadence : Obligations.FrameCadence := by
  intro c p hs hc
  have h : InFrame p := ⟨hs, hc⟩
  refine ⟨fun n => ?_, fun hready => ?_⟩
  · obtain ⟨hnumber, hs', hc'⟩ := ppuDots_number c n h
    exact ⟨hs', hc', hnumber⟩
  · have hlt := dotNumber_lt h
    refine ⟨89341 - dotNumber p, by omega, fun n _ => ?_⟩
    rw [ppuDots_frameReady c n h, hready, Bool.false_or, decide_eq_decide]
    omega

/-! ## The stages of a dot -/

/-- The PPU at the pixel of its dot: after lines 1 to 5 of rule R350. -/
def atPixel (c : Cartridge) (p : Ppu) : Ppu :=
  clearSpritesEvent (spriteFetchEvent c (evaluationEvent (backgroundEvent c (flagEvents p))))

theorem dotEvents_eq_pixelEvent (c : Cartridge) (p : Ppu) : dotEvents c p = pixelEvent (atPixel c p) := rfl

theorem flagEvents_of_ne {p : Ppu} (h : p.cycle ≠ 1) : flagEvents p = p := by
  have hnot : ∀ line, ¬(p.scanline = line ∧ p.cycle = 1) := fun _ ⟨_, hc⟩ => h hc
  rw [flagEvents, if_neg (hnot _), if_neg (hnot _), if_neg (hnot _)]

theorem evaluationEvent_of_not {p : Ppu} (h : ¬(p.scanline ≤ 239 ∧ p.cycle = 257)) : evaluationEvent p = p :=
  if_neg fun ⟨_, h'⟩ => h h'

theorem spriteLineEvents_of_ne {c : Cartridge} {p : Ppu} (h : p.cycle ≠ 340) :
    clearSpritesEvent (spriteFetchEvent c p) = p := by
  have hfetch : spriteFetchEvent c p = p := if_neg fun ⟨_, _, hc⟩ => h hc
  rw [hfetch]
  exact if_neg fun ⟨_, hc⟩ => h hc

/-- The flag and background events leave the counters. -/
theorem backgroundEvent_counters (c : Cartridge) (p : Ppu) :
    (backgroundEvent c (flagEvents p)).scanline = p.scanline ∧
      (backgroundEvent c (flagEvents p)).cycle = p.cycle := by
  obtain ⟨_, _, _, _, e⟩ := flagEvents_eq p
  obtain ⟨_, _, e'⟩ := backgroundEvent_eq c (flagEvents p)
  rw [e', e]
  exact ⟨rfl, rfl⟩

/-- Before dot 340 the only sprite event is the evaluation. -/
theorem atPixel_of_ne {c : Cartridge} {p : Ppu} (h : p.cycle ≠ 340) :
    atPixel c p = evaluationEvent (backgroundEvent c (flagEvents p)) := by
  obtain ⟨o, l, e, -⟩ := evaluationEvent_eq (backgroundEvent c (flagEvents p))
  refine spriteLineEvents_of_ne ?_
  rw [e]
  exact (backgroundEvent_counters c p).2 ▸ h

/-- On a dot that neither evaluates nor fetches sprites only the first two lines of rule R350 precede the pixel. -/
theorem atPixel_of_background {c : Cartridge} {p : Ppu} (h : p.cycle ≠ 340)
    (he : ¬(p.scanline ≤ 239 ∧ p.cycle = 257)) : atPixel c p = backgroundEvent c (flagEvents p) := by
  obtain ⟨hs, hc⟩ := backgroundEvent_counters c p
  rw [atPixel_of_ne h, evaluationEvent_of_not (by rwa [hs, hc])]

/-- What the flag events leave is changed before the pixel in the overflow flag, `v`, the background and the sprite
lists only. -/
theorem atPixel_eq (c : Cartridge) (p : Ppu) : ∃ o v b l l', atPixel c p =
    { flagEvents p with spriteOverflow := o, v := v, bg := b, lineSprites := l, nextSprites := l' } := by
  unfold atPixel
  obtain ⟨v, b, e⟩ := backgroundEvent_eq c (flagEvents p)
  rw [e]
  obtain ⟨o, l', e, -⟩ := evaluationEvent_eq { flagEvents p with v := v, bg := b }
  rw [e]
  obtain ⟨l, e, -⟩ :=
    spriteLineEvents_eq c { flagEvents p with v := v, bg := b, spriteOverflow := o, nextSprites := l' }
  exact ⟨o, v, b, l, l', e⟩

/-- The dots that show a pixel (rule R350 line 6). -/
def Visible (p : Ppu) : Prop := p.scanline ≤ 239 ∧ 1 ≤ p.cycle ∧ p.cycle ≤ 256

theorem visible_atPixel (c : Cartridge) (p : Ppu) : Visible (atPixel c p) ↔ Visible p := by
  obtain ⟨_, _, _, _, _, e⟩ := atPixel_eq c p
  obtain ⟨_, _, _, _, e'⟩ := flagEvents_eq p
  rw [e, e']
  rfl

theorem dotEvents_of_visible {c : Cartridge} {p : Ppu} (h : Visible p) :
    dotEvents c p = pixelDot (backgroundEvent c (flagEvents p)) := by
  have hline : atPixel c p = backgroundEvent c (flagEvents p) := by
    obtain ⟨-, -, hc⟩ := h
    exact atPixel_of_background (by omega) (by omega)
  rw [dotEvents_eq_pixelEvent, ← hline]
  exact if_pos ((visible_atPixel c p).mpr h)

theorem dotEvents_of_not_visible {c : Cartridge} {p : Ppu} (h : ¬Visible p) : dotEvents c p = atPixel c p :=
  if_neg (mt (visible_atPixel c p).mp h)

/-! ## The flag events (rules R352, R353) -/

/-- vblank and the NMI request after a dot are those of the flag events. -/
theorem ppuDot_flags (c : Cartridge) (p : Ppu) :
    (ppuDot c p).vblank = (flagEvents p).vblank ∧ (ppuDot c p).nmiRequest = (flagEvents p).nmiRequest := by
  obtain ⟨_, _, _, _, _, e⟩ := atPixel_eq c p
  obtain ⟨_, _, e', -⟩ := pixelEvent_eq (atPixel c p)
  obtain ⟨_, _, _, e''⟩ := advanceDot_eq (dotEvents c p)
  rw [ppuDot, e'', dotEvents_eq_pixelEvent, e', e]
  exact ⟨rfl, rfl⟩

/-- Settles O51: no event after the flag events touches vblank or the NMI request, no dot of line 261 evaluates sprites
or shows a pixel, and frame-ready is the counters'. -/
theorem flagEventsOfADot : Obligations.FlagEventsOfADot := by
  intro c p q at'
  obtain ⟨hvblank, hnmi⟩ := ppuDot_flags c p
  have hready := ppuDot_frameReady c p
  refine ⟨fun h => ?_, fun h => ?_, fun h h' => ?_, fun h => ?_, fun h => ?_, fun h => ?_, fun h => ?_, fun h => ?_⟩
  · rw [hvblank, flagEvents, if_pos h]
  · have h241 : ¬(p.scanline = 241 ∧ p.cycle = 1) := by have := h.1; omega
    rw [hvblank, flagEvents, if_neg h241, if_pos h]
  · rw [hvblank, flagEvents, if_neg h, if_neg h']
    split <;> rfl
  · rw [hnmi, flagEvents, if_pos h]
  · rw [hnmi, flagEvents, if_neg h]
    split
    · rfl
    · split <;> rfl
  · obtain ⟨hs, hc⟩ := h
    obtain ⟨_, _, e⟩ := backgroundEvent_eq c (flagEvents p)
    obtain ⟨_, _, _, e'⟩ := advanceDot_eq (dotEvents c p)
    have hdot : dotEvents c p = backgroundEvent c (flagEvents p) := by
      rw [dotEvents_of_not_visible (fun h => by have := h.1; omega), atPixel_of_background (by omega) (by omega)]
    have hflags : flagEvents p = { p with sprite0Hit := false, spriteOverflow := false } := by
      rw [flagEvents, if_neg (by omega), if_neg (by omega), if_pos ⟨hs, hc⟩]
    show (ppuDot c p).sprite0Hit = false ∧ (ppuDot c p).spriteOverflow = false
    rw [ppuDot, e', hdot, e, hflags]
    exact ⟨rfl, rfl⟩
  · rw [hready, decide_eq_true h, Bool.or_true]
  · rw [hready, decide_eq_false h, Bool.or_false]

theorem flagEvents_frame (p : Ppu) : (flagEvents p).frame = p.frame := by
  obtain ⟨_, _, _, _, e⟩ := flagEvents_eq p
  rw [e]

/-- The flag events clear the hit flag at (261, 1) and touch it nowhere else. -/
theorem flagEvents_sprite0Hit (p : Ppu) :
    (flagEvents p).sprite0Hit = (p.sprite0Hit && !decide (p.scanline = 261 ∧ p.cycle = 1)) := by
  by_cases h : p.scanline = 261 ∧ p.cycle = 1
  · rw [flagEvents, if_neg (by omega), if_neg (by omega), if_pos h, decide_eq_true h, Bool.not_true, Bool.and_false]
  · rw [decide_eq_false h, Bool.not_false, Bool.and_true, flagEvents, if_neg h]
    split
    · rfl
    · split <;> rfl

/-! ## Sprite evaluation (rule R363) -/

/-- In the list of the numbers below `m` that have a property, `n` stands after those smaller ones that have it. -/
theorem getElem?_filter_range {P : Nat → Bool} {n m : Nat} (hn : n < m) (hP : P n = true) :
    ((List.range m).filter P)[(List.range n).countP P]? = some n := by
  obtain ⟨k, rfl⟩ := Nat.exists_eq_add_of_lt hn
  rw [Nat.add_assoc, List.range_add, List.range_succ_eq_map, List.map_cons, List.filter_append, Nat.add_zero,
    List.filter_cons_of_pos hP, List.countP_eq_length_filter, List.getElem?_append_right (Nat.le_refl _),
    Nat.sub_self, List.getElem?_cons_zero]

/-- The dot that evaluates leaves what `evaluateSprites` found for the state before it. -/
theorem ppuDot_evaluates (c : Cartridge) {p : Ppu} (hr : renderingEnabled p = true) (hs : p.scanline ≤ 239)
    (hc : p.cycle = 257) :
    (ppuDot c p).nextSprites = (evaluateSprites p).nextSprites ∧
      (ppuDot c p).spriteOverflow = (evaluateSprites p).spriteOverflow := by
  obtain ⟨v, b, e⟩ := backgroundEvent_eq c p
  obtain ⟨_, _, _, e'⟩ := advanceDot_eq (dotEvents c p)
  have hdot : dotEvents c p = evaluateSprites { p with v := v, bg := b } := by
    rw [dotEvents_of_not_visible (fun h => by have := h.2.2; omega), atPixel_of_ne (by omega),
      flagEvents_of_ne (by omega), e]
    exact if_pos ⟨hr, hs, hc⟩
  rw [ppuDot, e', hdot]
  exact ⟨rfl, rfl⟩

/-- Settles O54: the sprites found are those in range, in order, of which eight are taken. -/
theorem spriteEvaluationPicksTheFirstEight : Obligations.SpriteEvaluationPicksTheFirstEight := by
  intro c p hmask hs hc h y inRange count q
  have hr : renderingEnabled p = true := by simpa [renderingEnabled] using hmask
  obtain ⟨hnext, hoverflow⟩ := ppuDot_evaluates c hr hs hc
  have hin : spriteInRange p = inRange := by
    funext n
    have hiff : y n ≤ p.scanline ∧ p.scanline < y n + h ↔ y n ≤ p.scanline ∧ p.scanline - y n < h := by omega
    exact decide_eq_decide.mpr hiff
  have hlist : q.nextSprites = (((List.range 64).filter inRange).take 8).map (spriteRecord p) := hin ▸ hnext
  have hcount : ((List.range 64).filter inRange).length = count := List.countP_eq_length_filter.symm
  refine ⟨?_, fun n hn hP h8 => ?_, ?_⟩
  · rw [hlist, List.length_map, List.length_take, hcount]
  · rw [hlist, List.getElem?_map, List.getElem?_take_of_lt h8, getElem?_filter_range hn hP]
    rfl
  · rw [← hcount, ← hin]
    exact hoverflow

/-! ## The pixel (rules R365 to R368) -/

/-- The palette of a sprite record, 4 to 7. -/
theorem spritePalette_toNat (attr : Byte) :
    (4 + (attr.extractLsb' 0 2).setWidth 3 : BitVec 3).toNat = 4 + attr.toNat % 4 := by
  revert attr
  decide +kernel

section Pixel

variable {p : Ppu}

/-- The bits of `b` that a pixel can show are those of `p`'s registers, shifted by one but at dot 1 (rules R350,
R355). -/
def ShowsShifted (p : Ppu) (b : Background) : Prop :=
  ∀ k, 8 ≤ k → k < 16 →
    planeBits b.patHi b.patLo k = planeBits p.bg.patHi p.bg.patLo (if p.cycle = 1 then k else k - 1) ∧
    planeBits b.attHi b.attLo k = planeBits p.bg.attHi p.bg.attLo (if p.cycle = 1 then k else k - 1)

/-- What stands at the pixel of a visible dot: all that the pixel reads as before the dot, but for the background. -/
theorem backgroundEvent_of_visible (c : Cartridge) (h : Visible p) :
    ∃ vb v b, backgroundEvent c (flagEvents p) = { p with vblank := vb, v := v, bg := b } ∧
      (renderingEnabled p = true → ShowsShifted p b) := by
  obtain ⟨hs, hc, hc'⟩ := h
  obtain ⟨vb, hflags⟩ : ∃ vb, flagEvents p = { p with vblank := vb } := by
    rw [flagEvents, if_neg (by omega)]
    split
    · exact ⟨_, rfl⟩
    · exact ⟨p.vblank, if_neg (by omega)⟩
  rw [hflags]
  obtain ⟨v, b, e⟩ := backgroundEvent_eq c { p with vblank := vb }
  refine ⟨vb, v, b, e, fun hr k hk hk' => ?_⟩
  obtain ⟨h1, h2, h3, h4⟩ := backgroundEvent_high c { p with vblank := vb } hr hs hc hc' k hk hk'
  rw [e] at h1 h2 h3 h4
  simp only [planeBits, h1, h2, h3, h4, and_self]

/-- The background pixel is the one `backgroundValue` and `backgroundPalette` say. -/
theorem backgroundPixel_toNat {q : Ppu} (hmask : q.mask = p.mask) (hx : q.x = p.x)
    (hb : renderingEnabled p = true → ShowsShifted p q.bg) :
    (backgroundPixel q (column p)).value.toNat = backgroundValue p ∧
    (backgroundPixel q (column p)).pal.toNat = backgroundPalette p := by
  unfold backgroundValue backgroundPalette
  by_cases h : layerShows p 3 1 = true
  · have hr : renderingEnabled p = true := by
      rw [renderingEnabled, (Bool.and_eq_true_iff.mp h).1, Bool.true_or]
    have hk : shownBit p = if p.cycle = 1 then 15 - p.x.toNat else 15 - p.x.toNat - 1 := by
      unfold shownBit
      split <;> omega
    have hpixel : backgroundPixel q (column p) =
        { value := twoBits (q.bg.patHi.getLsbD (15 - p.x.toNat)) (q.bg.patLo.getLsbD (15 - p.x.toNat))
          pal := (twoBits (q.bg.attHi.getLsbD (15 - p.x.toNat)) (q.bg.attLo.getLsbD (15 - p.x.toNat))).setWidth 3 } := by
      rw [← hx]
      exact if_pos (hmask ▸ h)
    have hxlt := p.x.isLt
    obtain ⟨hpat, hatt⟩ := hb hr (15 - p.x.toNat) (by omega) (by omega)
    rw [if_pos h, if_pos h, hk, ← hpat, ← hatt, hpixel, BitVec.toNat_setWidth_of_le (by decide), twoBits_toNat,
      twoBits_toNat]
    exact ⟨rfl, rfl⟩
  · have hpixel : backgroundPixel q (column p) = { value := 0, pal := 0 } := if_neg (hmask ▸ h)
    rw [if_neg h, if_neg h, hpixel]
    exact ⟨rfl, rfl⟩

/-- The pixel a sprite record gives. -/
def recordPixel (px : Nat) (r : LineSprite) : SpritePixel :=
  { pixel := { value := spriteValue r px, pal := 4 + (r.attr.extractLsb' 0 2).setWidth 3 }
    front := !r.attr.getLsbD 5, isZero := r.isZero }

/-- The sprite pixel is that of the record `shownSprite` names; it looks at the mask and the records only. -/
theorem spritePixel_eq_shownSprite {q : Ppu} (hmask : q.mask = p.mask) (hline : q.lineSprites = p.lineSprites) :
    spritePixel q (column p) = (shownSprite p).map (recordPixel (column p)) := by
  unfold spritePixel shownSprite
  rw [hmask, hline]
  by_cases h : layerShows p 4 2 = true
  · rw [if_pos h]
    exact (if_pos h).trans (firstSprite_eq _ _)
  · rw [if_neg h]
    exact if_neg h

theorem coverage_of_shown {r : LineSprite} (h : shownSprite p = some r) : coverage r (column p) ≠ 0 := by
  unfold shownSprite at h
  split at h
  · simpa using List.find?_some h
  · cases h

theorem value_eq_zero_iff {bg : Pixel} (hvalue : bg.value.toNat = backgroundValue p) :
    bg.value = 0 ↔ backgroundValue p = 0 := by
  rw [← hvalue]
  exact BitVec.toNat_inj.symm

/-- The palette entry of the composed pixel (rules R367, R368). -/
theorem paletteIndex_compose {bg : Pixel} (hvalue : bg.value.toNat = backgroundValue p)
    (hpal : bg.pal.toNat = backgroundPalette p) :
    paletteIndex (pixelAddress (compose bg ((shownSprite p).map (recordPixel (column p))))) = shownEntry p := by
  have hzero := value_eq_zero_iff hvalue
  unfold shownEntry
  cases hs : shownSprite p with
  | none =>
    simp only [Option.map_none, compose]
    split
    · rw [paletteIndex_pixelAddress, if_pos (hzero.mp ‹_›)]
      rfl
    · rw [paletteIndex_pixelAddress, hvalue, hpal]
  | some r =>
    have hr := coverage_of_shown hs
    have hsprite : paletteIndex (pixelAddress (recordPixel (column p) r).pixel) =
        4 * (4 + r.attr.toNat % 4) + coverage r (column p) := by
      rw [recordPixel, paletteIndex_pixelAddress, spritePalette_toNat, spriteValue_toNat, if_neg hr]
    simp only [Option.map_some, compose]
    by_cases hb : backgroundValue p = 0
    · rw [if_pos (hzero.mpr hb), if_pos (.inl hb), hsprite]
    · rw [if_neg (mt hzero.mp hb)]
      have hfront : (recordPixel (column p) r).front = !r.attr.getLsbD 5 := rfl
      rw [hfront]
      cases r.attr.getLsbD 5 with
      | false => rw [if_pos Bool.not_false, if_pos (.inr rfl), hsprite]
      | true =>
        rw [if_neg (by decide), if_neg (by simp [hb]), if_neg hb, paletteIndex_pixelAddress, hvalue, hpal, if_neg hb]

theorem hitsSprite0_eq_meetsSprite0 {bg : Pixel} (hvalue : bg.value.toNat = backgroundValue p) :
    hitsSprite0 bg ((shownSprite p).map (recordPixel (column p))) (column p) = meetsSprite0 p := by
  unfold meetsSprite0
  cases shownSprite p with
  | none => rfl
  | some r =>
    rw [Bool.eq_iff_iff]
    simp only [hitsSprite0, recordPixel, Option.map_some, Bool.and_eq_true, bne_iff_ne, decide_eq_true_iff, ne_eq,
      value_eq_zero_iff hvalue, and_assoc]

/-- The frame entry and the hit flag of a visible dot, by its second formulation. -/
theorem ppuDot_of_visible (c : Cartridge) (h : Visible p) :
    (ppuDot c p).frame = writeCell p.frame (p.scanline * 256 + p.cycle - 1)
        (readCell p.palette (shownEntry p) &&& (if p.mask.getLsbD 0 then 0x30 else 0x3F)) ∧
      (ppuDot c p).sprite0Hit = (p.sprite0Hit || meetsSprite0 p) := by
  obtain ⟨vb, v, b, e, hb⟩ := backgroundEvent_of_visible c h
  obtain ⟨_, _, _, e'⟩ := advanceDot_eq (dotEvents c p)
  obtain ⟨hvalue, hpal⟩ := backgroundPixel_toNat (p := p) (q := { p with vblank := vb, v := v, bg := b }) rfl rfl hb
  have hsprite := spritePixel_eq_shownSprite (p := p) (q := { p with vblank := vb, v := v, bg := b }) rfl rfl
  have hindex : p.scanline * 256 + p.cycle - 1 = frameIndex p.scanline (column p) := Nat.add_sub_assoc h.2.1 _
  rw [ppuDot, e', dotEvents_of_visible h, e, hindex, ← paletteIndex_compose hvalue hpal,
    ← hitsSprite0_eq_meetsSprite0 hvalue, ← hsprite]
  exact ⟨rfl, rfl⟩

/-- With both layers hidden the backdrop shows. -/
theorem shownEntry_of_hidden (h3 : p.mask.getLsbD 3 = false) (h4 : p.mask.getLsbD 4 = false) : shownEntry p = 0 := by
  have hback : backgroundValue p = 0 := by
    rw [backgroundValue, layerShows, h3, Bool.false_and, if_neg Bool.false_ne_true]
  have hsprite : shownSprite p = none := by
    rw [shownSprite, layerShows, h4, Bool.false_and, if_neg Bool.false_ne_true]
  simp only [shownEntry, hsprite, hback, if_true]

end Pixel

/-- Settles O53: at a visible dot the composed pixel is the second formulation's; at any other the pixel line of the dot
does nothing, and only the flag events of line 261 touch the hit flag. -/
theorem eachVisibleDotWritesItsPixel : Obligations.EachVisibleDotWritesItsPixel := by
  intro c p visible
  refine ⟨fun h => ?_, fun h => ?_⟩
  · obtain ⟨hframe, hhit⟩ := ppuDot_of_visible c h
    exact ⟨hframe, hhit, shownEntry_of_hidden⟩
  · obtain ⟨_, _, _, _, _, e⟩ := atPixel_eq c p
    obtain ⟨_, _, _, e'⟩ := advanceDot_eq (dotEvents c p)
    rw [ppuDot, e', dotEvents_of_not_visible h, e]
    exact ⟨flagEvents_frame p, flagEvents_sprite0Hit p⟩

end Sys2Proof.Machine
end

section
/-! PROOFS. The statement about the PPU's scroll counters (51_ppu): a written bit field as bits and as a number, and the
increments and copies made of such writes. -/

namespace Sys2Proof.Machine

/-! ## Bit fields (00_scope rule R5) -/

section Fields

variable {w len lo : Nat}

theorem getLsbD_putField (h : lo + len ≤ w) (v : BitVec w) (x : BitVec len) (i : Nat) :
    (putField v lo x).getLsbD i = if lo ≤ i ∧ i < lo + len then x.getLsbD (i - lo) else v.getLsbD i := by
  unfold putField
  simp only [BitVec.getLsbD_or, BitVec.getLsbD_and, BitVec.getLsbD_not, BitVec.getLsbD_shiftLeft,
    BitVec.getLsbD_setWidth, BitVec.getLsbD_allOnes]
  by_cases hin : lo ≤ i ∧ i < lo + len
  · have h1 : i < w := by omega
    have h2 : i - lo < w := by omega
    have h3 : i - lo < len := by omega
    have h4 : ¬i < lo := by omega
    simp [hin, h1, h2, h3, h4]
  · rw [if_neg hin]
    by_cases hi : i < w
    · have hout : i < lo ∨ len ≤ i - lo := by omega
      rcases hout with h1 | h1
      · simp [hi, h1]
      · have := BitVec.getLsbD_of_ge x _ h1
        simp [this, hi, Nat.not_lt.mpr h1]
    · simp [hi, BitVec.getLsbD_of_ge v i (by omega)]

/-- A written field as a number: the digits above it, the field, the digits below it. -/
theorem toNat_putField (h : lo + len ≤ w) (v : BitVec w) (x : BitVec len) :
    (putField v lo x).toNat =
      2 ^ lo * (2 ^ len * (v.toNat / 2 ^ (lo + len)) + x.toNat) + v.toNat % 2 ^ lo := by
  apply Nat.eq_of_testBit_eq
  intro i
  rw [Nat.testBit_two_pow_mul_add _ (Nat.mod_lt _ (Nat.two_pow_pos lo)), Nat.testBit_two_pow_mul_add _ x.isLt,
    ← BitVec.getLsbD, getLsbD_putField h, Nat.testBit_mod_two_pow, Nat.testBit_div_two_pow]
  by_cases hlo : i < lo
  · rw [if_neg (by omega), if_pos hlo, decide_eq_true hlo, Bool.true_and]
    rfl
  · rw [if_neg hlo]
    by_cases hlen : i - lo < len
    · rw [if_pos hlen, if_pos (by omega)]
      rfl
    · rw [if_neg hlen, if_neg (by omega)]
      rw [show i - lo - len + (lo + len) = i by omega]
      rfl

/-- Two fields that do not overlap can be written in either order. -/
theorem putField_comm {len' lo' : Nat} (hd : lo + len ≤ lo') (h : lo' + len' ≤ w) (v : BitVec w) (x : BitVec len)
    (y : BitVec len') : putField (putField v lo x) lo' y = putField (putField v lo' y) lo x := by
  apply BitVec.eq_of_getLsbD_eq
  intro i _
  rw [getLsbD_putField h, getLsbD_putField (by omega), getLsbD_putField (by omega), getLsbD_putField h]
  by_cases hx : lo ≤ i ∧ i < lo + len
  · rw [if_neg (by omega), if_pos hx, if_pos hx]
  · rw [if_neg hx, if_neg hx]

/-- Writing the negation of a bit flips it. -/
theorem putField_not_bit {k : Nat} (h : k + 1 ≤ w) (v : BitVec w) :
    putField v k (~~~(v.extractLsb' k 1)) = v ^^^ BitVec.twoPow w k := by
  apply BitVec.eq_of_getLsbD_eq
  intro i hi
  rw [getLsbD_putField h, BitVec.getLsbD_xor, BitVec.getLsbD_twoPow]
  by_cases hk : i = k
  · subst hk
    simp [hi]
  · rw [if_neg (by omega)]
    simp [Ne.symm hk]

end Fields

/-! ## Scroll increments and copies (rules R359 to R362) -/

theorem coarseX_toNat (v : BitVec 15) : (coarseX v).toNat = v.toNat % 32 := by
  simp [coarseX, BitVec.extractLsb'_toNat]

theorem coarseY_toNat (v : BitVec 15) : (coarseY v).toNat = v.toNat / 32 % 32 := by
  simp [coarseY, BitVec.extractLsb'_toNat, Nat.shiftRight_eq_div_pow]

theorem fineY_toNat (v : BitVec 15) : (fineY v).toNat = v.toNat / 4096 := by
  have := v.isLt
  simp only [fineY, BitVec.extractLsb'_toNat, Nat.shiftRight_eq_div_pow]
  omega

/-- Flipping the nametable bits leaves the rows and columns. -/
theorem flipX_toNat (v : BitVec 15) : (v ^^^ 0x0400).toNat % 32 = v.toNat % 32 := by
  rw [BitVec.toNat_xor]
  exact (Nat.xor_mod_two_pow (n := 5)).trans (Nat.xor_zero _)

theorem flipY_toNat (v : BitVec 15) :
    (v ^^^ 0x0800).toNat / 32 % 32 = v.toNat / 32 % 32 ∧ (v ^^^ 0x0800).toNat / 4096 = v.toNat / 4096 := by
  have hrow : (v.toNat ^^^ 0x0800) / 2 ^ 5 = v.toNat / 2 ^ 5 ^^^ 0x0800 / 2 ^ 5 := Nat.xor_div_two_pow
  rw [BitVec.toNat_xor]
  refine ⟨?_, (Nat.xor_div_two_pow (n := 12)).trans (Nat.xor_zero _)⟩
  exact (congrArg (· % 2 ^ 5) hrow).trans (Nat.xor_mod_two_pow.trans (Nat.xor_zero _))

/-- Coarse X goes up by one, and from the last column to 0 with the nametable flipped. -/
theorem incCoarseX_toNat (v : BitVec 15) :
    (incCoarseX v).toNat = if v.toNat % 32 = 31 then (v ^^^ 0x0400).toNat - 31 else v.toNat + 1 := by
  have hcol : coarseX v = 31 ↔ v.toNat % 32 = 31 := by
    rw [← coarseX_toNat]
    exact BitVec.toNat_inj.symm
  by_cases h : v.toNat % 32 = 31
  · have hflip : putField (putField v 0 (0#5)) 10 (~~~(nametableX v)) = putField (v ^^^ 0x0400) 0 (0#5) := by
      rw [putField_comm (by decide) (by decide), nametableX, putField_not_bit (by decide)]
      rfl
    have hx := flipX_toNat v
    rw [incCoarseX, if_pos (hcol.mpr h), hflip, toNat_putField (by decide), if_pos h]
    simp only [BitVec.toNat_zero, Nat.reducePow, Nat.reduceAdd]
    omega
  · have hnum : (coarseX v + 1).toNat = v.toNat % 32 + 1 := by
      rw [BitVec.toNat_add, coarseX_toNat]
      simp
      omega
    rw [incCoarseX, if_neg (mt hcol.mp h), toNat_putField (by decide), hnum, if_neg h]
    omega

theorem coarseY_eq_iff (v : BitVec 15) (k : BitVec 5) : coarseY v = k ↔ v.toNat / 32 % 32 = k.toNat := by
  rw [← coarseY_toNat]
  exact BitVec.toNat_inj.symm

theorem incY_of_fine {v : BitVec 15} (h : v.toNat / 4096 < 7) : (incY v).toNat = v.toNat + 0x1000 := by
  have hfine : fineY v < 7 := by
    rw [BitVec.lt_def, fineY_toNat]
    exact h
  have hnum : (fineY v + 1).toNat = v.toNat / 4096 + 1 := by
    rw [BitVec.toNat_add, fineY_toNat]
    simp
    omega
  have := v.isLt
  rw [incY, if_pos hfine, toNat_putField (by decide), hnum]
  omega

/-- From the last fine row Y goes to fine row 0 of the next coarse row, with the two wraps of rule R360. -/
theorem incY_of_last_fine {v : BitVec 15} (h : v.toNat / 4096 = 7) :
    (incY v).toNat =
      if v.toNat / 32 % 32 = 29 then (v ^^^ 0x0800).toNat - 0x7000 - 29 * 32
      else if v.toNat / 32 % 32 = 31 then v.toNat - 0x7000 - 31 * 32
      else v.toNat - 0x7000 + 32 := by
  have hfine : ¬fineY v < 7 := by
    rw [BitVec.lt_def, fineY_toNat, h]
    exact Nat.lt_irrefl 7
  have hrow (u : BitVec 15) (x : BitVec 5) : (putField (putField u 12 (0#3)) 5 x).toNat =
      32 * (32 * (u.toNat % 4096 / 1024) + x.toNat) + u.toNat % 32 := by
    have := u.isLt
    rw [toNat_putField (by decide), toNat_putField (by decide)]
    simp only [BitVec.toNat_zero, Nat.reducePow, Nat.reduceAdd]
    omega
  have hiff29 : coarseY v = 29 ↔ v.toNat / 32 % 32 = 29 := coarseY_eq_iff v 29
  have hiff31 : coarseY v = 31 ↔ v.toNat / 32 % 32 = 31 := coarseY_eq_iff v 31
  rw [incY, if_neg hfine]
  simp only [hiff29, hiff31]
  by_cases h29 : v.toNat / 32 % 32 = 29
  · have hflip : putField (putField (putField v 12 (0#3)) 5 (0#5)) 11 (~~~(nametableY v)) =
        putField (putField (v ^^^ 0x0800) 12 (0#3)) 5 (0#5) := by
      rw [putField_comm (lo := 5) (by decide) (by decide), ← putField_comm (lo := 11) (by decide) (by decide),
        nametableY, putField_not_bit (by decide)]
      rfl
    obtain ⟨hy, hf⟩ := flipY_toNat v
    rw [if_pos h29, if_pos h29, hflip, hrow, BitVec.toNat_zero]
    omega
  · rw [if_neg h29, if_neg h29]
    by_cases h31 : v.toNat / 32 % 32 = 31
    · rw [if_pos h31, if_pos h31, hrow, BitVec.toNat_zero]
      omega
    · have hnum : (coarseY v + 1).toNat = v.toNat / 32 % 32 + 1 := by
        rw [BitVec.toNat_add, coarseY_toNat]
        simp
        omega
      rw [if_neg h31, if_neg h31, hrow, hnum]
      omega

theorem getLsbD_copyHorizontal (t v : BitVec 15) {k : Nat} (hk : k < 15) :
    (copyHorizontal t v).getLsbD k = if k ≤ 4 ∨ k = 10 then t.getLsbD k else v.getLsbD k := by
  rw [copyHorizontal, getLsbD_putField (by decide), getLsbD_putField (by decide)]
  simp only [nametableX, coarseX, BitVec.getLsbD_extractLsb']
  interval_cases k <;> rfl

theorem getLsbD_copyVertical (t v : BitVec 15) {k : Nat} (hk : k < 15) :
    (copyVertical t v).getLsbD k = if k ≤ 4 ∨ k = 10 then v.getLsbD k else t.getLsbD k := by
  rw [copyVertical, getLsbD_putField (by decide), getLsbD_putField (by decide), getLsbD_putField (by decide)]
  simp only [nametableY, coarseY, fineY, BitVec.getLsbD_extractLsb']
  interval_cases k <;> rfl

/-- Settles O60: each increment and copy writes bit fields, whose digits the written number has. -/
theorem scrollIncrementsWrapAsCounters : Obligations.ScrollIncrementsWrapAsCounters := by
  refine ⟨fun v => ⟨fun h => ?_, fun h => ?_, incY_of_fine,
    fun h => ⟨fun h' => ?_, fun h' => ?_, fun h' h'' => ?_⟩⟩,
    fun t v k hk => ⟨getLsbD_copyHorizontal t v hk, getLsbD_copyVertical t v hk⟩⟩
  · rw [incCoarseX_toNat, if_pos h]
  · rw [incCoarseX_toNat, if_neg h]
  · rw [incY_of_last_fine h, if_pos h']
  · rw [incY_of_last_fine h, if_neg (by omega), if_pos h']
  · rw [incY_of_last_fine h, if_neg h', if_neg h'']

end Sys2Proof.Machine
end

section
/-! PROOFS. The statements about the CPU's side of the PPU (51_ppu): the ports of the register window and the PPU's own
address space. -/

namespace Sys2Proof.Machine

/-! ## The register window (rule R340) -/

section Window

variable {s : State} {a : Word} {d : Byte}

/-- An access at offset `k` of the register window selects register `k`. -/
theorem ppuRegister_of_offset {k : BitVec 3} (hk : a.toNat % 8 = k.toNat) : ppuRegister a = k := by
  apply BitVec.eq_of_toNat_eq
  rw [ppuRegister, BitVec.toNat_setWidth]
  exact hk

theorem busRead_window (h2 : 0x2000 ≤ a.toNat) (h4 : a.toNat < 0x4000) : busRead a s = ppuRegRead a s :=
  busRead_ppu (Nat.not_lt.mpr h2) h4 s

theorem busWrite_window (h2 : 0x2000 ≤ a.toNat) (h4 : a.toNat < 0x4000) : busWrite a d s = ppuRegWrite a d s :=
  busWrite_ppu (Nat.not_lt.mpr h2) h4 d s

/-! What each register's access is, by its offset (the table of rule R340). -/

theorem ppuRegWrite_ctrl (h : a.toNat % 8 = 0) : ppuRegWrite a d s = { s with ppu := ctrlWrite d s.ppu } := by
  rw [ppuRegWrite, ppuRegister_of_offset (k := 0) h]
  rfl

theorem ppuRegWrite_mask (h : a.toNat % 8 = 1) : ppuRegWrite a d s = { s with ppu := { s.ppu with mask := d } } := by
  rw [ppuRegWrite, ppuRegister_of_offset (k := 1) h]
  rfl

theorem ppuRegWrite_status (h : a.toNat % 8 = 2) : ppuRegWrite a d s = s := by
  rw [ppuRegWrite, ppuRegister_of_offset (k := 2) h]
  rfl

theorem ppuRegWrite_oamAddr (h : a.toNat % 8 = 3) :
    ppuRegWrite a d s = { s with ppu := { s.ppu with oamAddr := d } } := by
  rw [ppuRegWrite, ppuRegister_of_offset (k := 3) h]
  rfl

theorem ppuRegWrite_oamData (h : a.toNat % 8 = 4) : ppuRegWrite a d s = { s with ppu := oamDataWrite d s.ppu } := by
  rw [ppuRegWrite, ppuRegister_of_offset (k := 4) h]
  rfl

theorem ppuRegWrite_scroll (h : a.toNat % 8 = 5) : ppuRegWrite a d s = { s with ppu := scrollWrite d s.ppu } := by
  rw [ppuRegWrite, ppuRegister_of_offset (k := 5) h]
  rfl

theorem ppuRegWrite_addr (h : a.toNat % 8 = 6) : ppuRegWrite a d s = { s with ppu := addrWrite d s.ppu } := by
  rw [ppuRegWrite, ppuRegister_of_offset (k := 6) h]
  rfl

theorem ppuRegWrite_data (h : a.toNat % 8 = 7) : ppuRegWrite a d s = dataWrite d s := by
  rw [ppuRegWrite, ppuRegister_of_offset (k := 7) h]
  rfl

theorem ppuRegRead_status (h : a.toNat % 8 = 2) : ppuRegRead a s = statusRead a s := by
  rw [ppuRegRead, ppuRegister_of_offset (k := 2) h]
  rfl

theorem ppuRegRead_oamData (h : a.toNat % 8 = 4) :
    ppuRegRead a s = { val := readCell s.ppu.oam s.ppu.oamAddr.toNat, st := s } := by
  rw [ppuRegRead, ppuRegister_of_offset (k := 4) h]
  rfl

theorem ppuRegRead_data (h : a.toNat % 8 = 7) : ppuRegRead a s = dataRead s := by
  rw [ppuRegRead, ppuRegister_of_offset (k := 7) h]
  rfl

/-- The write-only registers read as open bus (rule R340). -/
theorem ppuRegRead_writeOnly (h : a.toNat % 8 ∈ [0, 1, 3, 5, 6]) : ppuRegRead a s = openBusRead a s := by
  have hne (k : BitVec 3) (hk : k.toNat ∉ [0, 1, 3, 5, 6]) : ppuRegister a ≠ k := by
    rintro rfl
    rw [ppuRegister, BitVec.toNat_setWidth] at hk
    exact hk h
  rw [ppuRegRead, if_neg (hne 2 (by decide)), if_neg (hne 4 (by decide)), if_neg (hne 7 (by decide))]

end Window

/-! ## Status, control, mask and OAM (rules R341 to R345) -/

theorem toNat_append_eq_add {n m : Nat} (x : BitVec n) (y : BitVec m) :
    (x ++ y).toNat = 2 ^ m * x.toNat + y.toNat := by
  rw [BitVec.toNat_append, Nat.shiftLeft_eq, Nat.mul_comm, ← Nat.two_pow_add_eq_or_of_lt y.isLt]

/-- The status byte as a number (rule R343). -/
theorem statusRead_toNat (a : Word) (s : State) :
    (statusRead a s).val.toNat = 128 * s.ppu.vblank.toNat + 64 * s.ppu.sprite0Hit.toNat +
      32 * s.ppu.spriteOverflow.toNat + (openBusValue a s.draws).toNat % 32 := by
  have hlow : ((openBusValue a s.draws).extractLsb' 0 5).toNat = (openBusValue a s.draws).toNat % 32 := by
    simp [BitVec.extractLsb'_toNat]
  simp only [statusRead, openBusRead, toNat_append_eq_add, BitVec.toNat_ofBool, hlow]
  omega

/-- Settles O47, register by register. -/
theorem ppuStatusControlMaskOamPorts : Obligations.PpuStatusControlMaskOamPorts := by
  intro s a d h2 h4
  rw [busRead_window h2 h4, busWrite_window h2 h4]
  refine ⟨fun h => ⟨_, ppuRegWrite_ctrl h, fun k _ => ?_⟩, ppuRegWrite_mask,
    fun h => ⟨?_, ?_, ppuRegWrite_status h⟩, ppuRegWrite_oamAddr, fun h => ⟨ppuRegRead_oamData h, ?_⟩,
    ppuRegRead_writeOnly⟩
  · rw [getLsbD_putField (by decide), BitVec.getLsbD_extractLsb']
    by_cases h10 : k = 10
    · subst h10
      rfl
    by_cases h11 : k = 11
    · subst h11
      rfl
    · rw [if_neg (by omega), if_neg h10, if_neg h11]
  · rw [ppuRegRead_status h, statusRead_toNat]
  · rw [ppuRegRead_status h]
    rfl
  · rw [ppuRegWrite_oamData h, oamDataWrite, add_one_eq_ofNat]

/-! ## The two-write protocol (rules R346, R348) -/

theorem fields_toNat (d : Byte) :
    (d.extractLsb' 0 3).toNat = d.toNat % 8 ∧ (d.extractLsb' 3 5).toNat = d.toNat / 8 ∧
      (d.extractLsb' 0 6).toNat = d.toNat % 64 := by
  have := d.isLt
  simp only [BitVec.extractLsb'_toNat, Nat.shiftRight_eq_div_pow]
  omega

theorem scrollWrite_first (d : Byte) {p : Ppu} (h : p.w = false) : ∃ t,
    scrollWrite d p = { p with t := t, x := BitVec.ofNat 3 (d.toNat % 8), w := true } ∧
      t.toNat = p.t.toNat / 32 * 32 + d.toNat / 8 := by
  obtain ⟨h3, h5, -⟩ := fields_toNat d
  have hx : d.extractLsb' 0 3 = BitVec.ofNat 3 (d.toNat % 8) := by
    rw [← h3, BitVec.ofNat_toNat, BitVec.setWidth_eq]
  refine ⟨_, by rw [scrollWrite, h, if_neg Bool.false_ne_true, hx], ?_⟩
  rw [toNat_putField (by decide), h5]
  omega

theorem scrollWrite_second (d : Byte) {p : Ppu} (h : p.w = true) : ∃ t,
    scrollWrite d p = { p with t := t, w := false } ∧
      t.toNat = d.toNat % 8 * 4096 + p.t.toNat / 1024 % 4 * 1024 + d.toNat / 8 * 32 + p.t.toNat % 32 := by
  obtain ⟨h3, h5, -⟩ := fields_toNat d
  have := p.t.isLt
  refine ⟨_, by rw [scrollWrite, h, if_pos rfl], ?_⟩
  rw [toNat_putField (by decide), toNat_putField (by decide), h3, h5]
  omega

theorem addrWrite_first (d : Byte) {p : Ppu} (h : p.w = false) : ∃ t,
    addrWrite d p = { p with t := t, w := true } ∧ t.toNat = d.toNat % 64 * 256 + p.t.toNat % 256 := by
  obtain ⟨-, -, h6⟩ := fields_toNat d
  have := p.t.isLt
  refine ⟨_, by rw [addrWrite, h, if_neg Bool.false_ne_true], ?_⟩
  rw [toNat_putField (by decide), toNat_putField (by decide), h6, BitVec.toNat_zero]
  omega

theorem addrWrite_second (d : Byte) {p : Ppu} (h : p.w = true) : ∃ t,
    addrWrite d p = { p with t := t, v := t, w := false } ∧ t.toNat = p.t.toNat / 256 * 256 + d.toNat := by
  refine ⟨_, by rw [addrWrite, h, if_pos rfl], ?_⟩
  rw [toNat_putField (by decide)]
  omega

/-- Settles O48: the four writes, and the two of PPUADDR one after the other. -/
theorem scrollAndAddressTwoWriteProtocol : Obligations.ScrollAndAddressTwoWriteProtocol := by
  refine ⟨fun s a d h2 h4 h5 => ?_, fun s a d h2 h4 h6 => ?_, fun s hi lo hw => ?_⟩
  · rw [busWrite_window h2 h4, ppuRegWrite_scroll h5]
    refine ⟨fun hw => ?_, fun hw => ?_⟩
    · obtain ⟨t, e, ht⟩ := scrollWrite_first d hw
      exact ⟨t, by rw [e], ht⟩
    · obtain ⟨t, e, ht⟩ := scrollWrite_second d hw
      exact ⟨t, by rw [e], ht⟩
  · rw [busWrite_window h2 h4, ppuRegWrite_addr h6]
    refine ⟨fun hw => ?_, fun hw => ?_⟩
    · obtain ⟨t, e, ht⟩ := addrWrite_first d hw
      exact ⟨t, by rw [e], ht⟩
    · obtain ⟨t, e, ht⟩ := addrWrite_second d hw
      exact ⟨t, by rw [e], ht⟩
  · obtain ⟨t, e, ht⟩ := addrWrite_first hi hw
    obtain ⟨t', e', ht'⟩ := addrWrite_second lo (p := { s.ppu with t := t, w := true }) rfl
    have hu : (busWrite 0x2006 lo (busWrite 0x2006 hi s)).ppu = addrWrite lo (addrWrite hi s.ppu) := rfl
    have := lo.isLt
    simp only [hu, e, e']
    refine ⟨?_, trivial⟩
    rw [ht']
    dsimp only
    omega

/-! ## The data port (rule R347) -/

theorem dataAddress_eq (p : Ppu) : dataAddress p = BitVec.ofNat 16 (p.v.toNat % 0x4000) := by
  have := p.v.isLt
  apply BitVec.eq_of_toNat_eq
  rw [dataAddress, BitVec.toNat_and, BitVec.toNat_setWidth, BitVec.toNat_ofNat, Nat.mod_eq_of_lt (by omega),
    Nat.mod_eq_of_lt (by omega)]
  exact Nat.and_two_pow_sub_one_eq_mod _ 14

theorem stepV_eq (p : Ppu) :
    stepV p = { p with v := BitVec.ofNat 15 (p.v.toNat + (if p.ctrl.getLsbD 2 then 32 else 1)) } := by
  have h : p.v + vIncrement p = BitVec.ofNat 15 (p.v.toNat + (if p.ctrl.getLsbD 2 then 32 else 1)) := by
    rw [vIncrement, BitVec.ofNat_add, BitVec.ofNat_toNat, BitVec.setWidth_eq]
    split <;> rfl
  rw [stepV, h]

/-- The nametable address below a palette address. -/
theorem paletteMirror_eq {a : Word} (h : 0x3F00 ≤ a.toNat) : a - 0x1000 = BitVec.ofNat 16 (a.toNat - 0x1000) := by
  bv_omega

/-- A write in the PPU's space leaves `v` and `ctrl`. -/
theorem ppuWrite_v_ctrl (a : Word) (d : Byte) (s : State) :
    (ppuWrite a d s).ppu.v = s.ppu.v ∧ (ppuWrite a d s).ppu.ctrl = s.ppu.ctrl := by
  unfold ppuWrite
  dsimp only
  split
  · exact ⟨rfl, rfl⟩
  · split <;> exact ⟨rfl, rfl⟩

/-- Settles O49: the port's address is `v` modulo 0x4000, and each access ends by stepping `v`. -/
theorem dataPortReadsThroughItsBuffer : Obligations.DataPortReadsThroughItsBuffer := by
  intro s a d h2 h4 h7 p v'
  have hp : dataAddress s.ppu = p := dataAddress_eq s.ppu
  rw [busRead_window h2 h4, busWrite_window h2 h4, ppuRegRead_data h7, ppuRegWrite_data h7]
  refine ⟨fun h => ?_, fun h => ?_, ?_⟩
  · have hlt : p < 0x3F00 := h
    simp only [dataRead, hp, if_pos hlt, stepV_eq]
    rfl
  · have hge : ¬p < 0x3F00 := Nat.not_lt.mpr h
    simp only [dataRead, hp, if_neg hge, stepV_eq, paletteMirror_eq h]
    rfl
  · obtain ⟨hv, hctrl⟩ := ppuWrite_v_ctrl p d s
    simp only [dataWrite, hp, stepV_eq, hv, hctrl]
    rfl

/-! ## The PPU's own space (rules R333 to R337) -/

theorem and_ppuSpace {a : Word} (h : a.toNat < 0x4000) : a &&& 0x3FFF = a := by
  apply BitVec.eq_of_toNat_eq
  rw [BitVec.toNat_and]
  exact (Nat.and_two_pow_sub_one_eq_mod _ 14).trans (Nat.mod_eq_of_lt h)

theorem and_chr {a : Word} (h : a.toNat < 0x2000) : a &&& 0x1FFF = a := by
  apply BitVec.eq_of_toNat_eq
  rw [BitVec.toNat_and]
  exact (Nat.and_two_pow_sub_one_eq_mod _ 13).trans (Nat.mod_eq_of_lt h)

theorem nametableIndex_eq_vramByte (m : Mirroring) {a : Word} (h : 0x2000 ≤ a.toNat) :
    nametableIndex m a = vramByte m a := by
  unfold nametableIndex vramByte
  cases m <;> dsimp only <;> omega

theorem paletteIndex_eq_paletteByte (a : Word) : paletteIndex a = paletteByte a := by
  unfold paletteIndex paletteByte
  dsimp only
  split <;> split <;> omega

section Space

variable {s : State} {a : Word}

theorem ppuRead_pattern (h : a.toNat < 0x2000) (c : Cartridge) (p : Ppu) : ppuRead c p a = readCell c.chr a.toNat := by
  have hlt : a < 0x2000 := h
  simp only [ppuRead, and_ppuSpace (Nat.lt_trans h (by decide : 0x2000 < 0x4000)), if_pos hlt, cartPpuRead, and_chr h]

theorem ppuRead_nametable (h : 0x2000 ≤ a.toNat) (h' : a.toNat < 0x3F00) (c : Cartridge) (p : Ppu) :
    ppuRead c p a = readCell p.vram (vramByte c.mirroring a) := by
  have hge : ¬a < 0x2000 := Nat.not_lt.mpr h
  have hlt : a < 0x3F00 := h'
  simp only [ppuRead, and_ppuSpace (Nat.lt_trans h' (by decide : 0x3F00 < 0x4000)), if_neg hge, if_pos hlt,
    nametableIndex_eq_vramByte _ h]

theorem ppuRead_palette (h : 0x3F00 ≤ a.toNat) (h' : a.toNat < 0x4000) (c : Cartridge) (p : Ppu) :
    ppuRead c p a =
      (readCell p.palette (paletteByte a) &&& (if p.mask.getLsbD 0 then 0x30 else 0x3F)).setWidth 8 := by
  have hge2 : ¬a < 0x2000 := Nat.not_lt.mpr (Nat.le_trans (by decide : 0x2000 ≤ 0x3F00) h)
  have hge : ¬a < 0x3F00 := Nat.not_lt.mpr h
  simp only [ppuRead, and_ppuSpace h', if_neg hge2, if_neg hge, paletteEntry, paletteIndex_eq_paletteByte]

theorem ppuWrite_pattern (h : a.toNat < 0x2000) (d : Byte) (s : State) :
    ppuWrite a d s =
      { s with cart := if s.cart.chrIsRam then { s.cart with chr := writeCell s.cart.chr a.toNat d } else s.cart } := by
  have hlt : a < 0x2000 := h
  simp only [ppuWrite, and_ppuSpace (Nat.lt_trans h (by decide : 0x2000 < 0x4000)), if_pos hlt, cartPpuWrite, and_chr h]

theorem ppuWrite_nametable (h : 0x2000 ≤ a.toNat) (h' : a.toNat < 0x3F00) (d : Byte) (s : State) :
    ppuWrite a d s =
      { s with ppu := { s.ppu with vram := writeCell s.ppu.vram (vramByte s.cart.mirroring a) d } } := by
  have hge : ¬a < 0x2000 := Nat.not_lt.mpr h
  have hlt : a < 0x3F00 := h'
  simp only [ppuWrite, and_ppuSpace (Nat.lt_trans h' (by decide : 0x3F00 < 0x4000)), if_neg hge, if_pos hlt,
    nametableIndex_eq_vramByte _ h]

theorem ppuWrite_palette (h : 0x3F00 ≤ a.toNat) (h' : a.toNat < 0x4000) (d : Byte) (s : State) :
    ppuWrite a d s =
      { s with ppu := { s.ppu with palette := writeCell s.ppu.palette (paletteByte a) (d.setWidth 6) } } := by
  have hge2 : ¬a < 0x2000 := Nat.not_lt.mpr (Nat.le_trans (by decide : 0x2000 ≤ 0x3F00) h)
  have hge : ¬a < 0x3F00 := Nat.not_lt.mpr h
  simp only [ppuWrite, and_ppuSpace h', if_neg hge2, if_neg hge, paletteIndex_eq_paletteByte]

end Space

/-- The six bits a palette entry keeps of a byte, read back under either greyscale setting (rule R336). -/
theorem paletteBits (d : Byte) (grey : Bool) :
    (d.setWidth 6 &&& (if grey then 0x30 else 0x3F) : BitVec 6).setWidth 8 = d &&& (if grey then 0x30 else 0x3F) := by
  cases grey <;> revert d <;> decide +kernel

/-- Settles O50, region by region: a write is one cell's, and the cell of an address is `vramByte`, `paletteByte` or the
address itself. -/
theorem ppuSpaceMirrorsAndAliases : Obligations.PpuSpaceMirrorsAndAliases := by
  intro s a b d hvram hpal hchr t
  refine ⟨fun ha ha' hb hb' => ?_, fun ha ha' hb hb' => ?_, fun ha hb => ?_⟩
  · have ht : t = _ := ppuWrite_nametable ha ha' d s
    rw [ht, ppuRead_nametable hb hb', ppuRead_nametable hb hb', readCell_writeCell hvram]
    simp only [eq_comm]
  · have ht : t = _ := ppuWrite_palette ha ha' d s
    rw [ht, ppuRead_palette hb hb', ppuRead_palette hb hb', readCell_writeCell hpal]
    by_cases h : paletteByte a = paletteByte b
    · rw [if_pos h.symm, if_pos h, ← paletteBits]
    · rw [if_neg (Ne.symm h), if_neg h]
  · have ht : t = _ := ppuWrite_pattern ha d s
    rw [ht, ppuRead_pattern hb, ppuRead_pattern hb]
    by_cases hram : s.cart.chrIsRam = true
    · simp only [hram, if_true, readCell_writeCell hchr, BitVec.toNat_inj, and_true, eq_comm]
    · rw [if_neg hram, if_neg fun h => hram h.2]

end Sys2Proof.Machine
end

section
/-! PROOFS. The statements about cartridges, images and the Synchronizer (52_cartridge_sync), and about a new session
(70_reset_and_hazards). -/

namespace Sys2Proof.Machine

/-! ## The mappers (rules R404, R405, R408, R409) -/

/-- A read of mapped program data. -/
theorem busRead_prg {a : Word} {k : Nat} {s : State} (h8 : ¬a < 0x8000) (hk : prgIndex s.cart a = some k) :
    busRead a s = { val := readCell s.cart.prg k, st := s } := by
  have h2 : ¬a < 0x2000 := fun hlt => h8 (BitVec.lt_trans hlt (by decide))
  exact busRead_peek (by rw [peek, if_neg h2, cartCpuRead, hk, Option.map_some])

theorem busWrite_prg {a : Word} (h8 : ¬a < 0x8000) (v : Byte) (s : State) :
    busWrite a v s = { s with cart := cartCpuWrite s.cart a v } := by
  have h4 : ¬a < 0x4000 := fun hlt => h8 (BitVec.lt_trans hlt (by decide))
  exact busWrite_cart_range h4 (by rintro rfl; exact h8 (by decide)) (by rintro rfl; exact h8 (by decide)) v s

theorem prgIndex_fixed {c : Cartridge} {a : Word} (hm : c.mapper = .fixed) (h8 : ¬a < 0x8000) :
    prgIndex c a = some ((a.toNat - 0x8000) % (c.nPrg * 16384)) := by
  rw [prgIndex, if_neg h8, hm]
  rfl

theorem prgIndex_banked {c : Cartridge} {a : Word} (hm : c.mapper = .banked) (h8 : ¬a < 0x8000) :
    prgIndex c a =
      some ((if a.toNat < 0xC000 then c.bank.toNat % c.nPrg else c.nPrg - 1) * 16384 + a.toNat % 16384) := by
  rw [prgIndex, if_neg h8, hm]
  by_cases hC : a.toNat < 0xC000
  · have hlt : a < 0xC000 := hC
    rw [if_pos hC]
    exact if_pos hlt
  · have hge : ¬a < 0xC000 := hC
    rw [if_neg hC]
    exact if_neg hge

theorem cartCpuWrite_banked {c : Cartridge} {a : Word} (hm : c.mapper = .banked) (h8 : ¬a < 0x8000) (v : Byte) :
    cartCpuWrite c a v = { c with bank := v } := by
  unfold cartCpuWrite
  split
  · rename_i hfixed
    rw [hm] at hfixed
    cases hfixed
  · exact if_neg h8

/-- Settles O55: an access from 0x8000 up is the cartridge's, through the index its mapper gives. -/
theorem programDataMappingAndBanks : Obligations.ProgramDataMappingAndBanks := by
  refine ⟨fun s a v hm h => ?_, ?_, fun c a v h => ?_⟩
  · have h8 : ¬a < 0x8000 := Nat.not_lt.mpr h
    refine ⟨busRead_prg h8 (prgIndex_fixed hm h8), ?_⟩
    rw [busWrite_prg h8, cartCpuWrite, hm]
  · intro s a b v hm ha hb bank
    have ha8 : ¬a < 0x8000 := Nat.not_lt.mpr ha
    have hb8 : ¬b < 0x8000 := Nat.not_lt.mpr hb
    have hwrite : busWrite a v s = { s with cart := { s.cart with bank := v } } := by
      rw [busWrite_prg ha8, cartCpuWrite_banked hm ha8]
    refine ⟨busRead_prg hb8 (prgIndex_banked hm hb8), hwrite, ?_⟩
    rw [hwrite, busRead_prg (s := { s with cart := { s.cart with bank := v } }) hb8 (prgIndex_banked hm hb8)]
  · have hlt : a < 0x8000 := h
    exact ⟨by rw [cartCpuRead, prgIndex_none hlt, Option.map_none], cartCpuWrite_of_lt hlt c v⟩

/-! ## Images (rules R410 to R412) -/

/-- The conditions of rule R411 under which an image for mapper `m` loads. -/
structure Accepted (image : List Byte) (m : Mapper) : Prop where
  headerLength : 16 ≤ image.length
  constant : (header image).constant = [0x4E, 0x45, 0x53, 0x1A]
  program : (header image).nPrg ≠ 0
  mapper : mapperOf (header image).mapperId = some m
  fixedUnits : ¬(m = .fixed ∧ 2 < (header image).nPrg)
  graphics : (header image).nChr ≤ 1
  twoScreens : (header image).flags6.getLsbD 3 = false
  length : (header image).chrOffset + (header image).nChr * chrUnit ≤ image.length

/-- The cartridge of an image for mapper `m` (rules R410, R412). -/
def builtFrom (image : List Byte) (m : Mapper) : Cartridge :=
  { prg := memoryOfBytes 0 (slice (header image).prgOffset ((header image).nPrg * prgUnit) image)
    nPrg := (header image).nPrg
    chr := memoryOfBytes 0 (slice (header image).chrOffset ((header image).nChr * chrUnit) image)
    chrIsRam := (header image).nChr == 0
    mapper := m
    mirroring := if (header image).flags6.getLsbD 0 then .vertical else .horizontal
    bank := 0 }

/-- What an image loads to, and when: the checks of `parseImage` one by one. -/
theorem parseImage_eq_ok_iff {image : List Byte} {c : Cartridge} :
    parseImage image = .ok c ↔ ∃ m, Accepted image m ∧ c = builtFrom image m := by
  constructor
  · intro h
    unfold parseImage at h
    dsimp only at h
    split at h
    · cases h
    rename_i hlength
    split at h
    · cases h
    rename_i hconstant
    split at h
    · cases h
    rename_i hprogram
    split at h
    · cases h
    rename_i m hmapper
    split at h
    · cases h
    rename_i hunits
    split at h
    · cases h
    rename_i hgraphics
    split at h
    · cases h
    rename_i hscreens
    split at h
    · cases h
    rename_i hwhole
    cases h
    exact ⟨m, ⟨Nat.not_lt.mp hlength, not_not.mp hconstant, hprogram, hmapper, hunits, Nat.not_lt.mp hgraphics,
      Bool.eq_false_iff.mpr hscreens, Nat.not_lt.mp hwhole⟩, rfl⟩
  · rintro ⟨m, h, rfl⟩
    unfold parseImage
    dsimp only
    rw [if_neg (Nat.not_lt.mpr h.headerLength), if_neg (not_not.mpr h.constant), if_neg h.program, h.mapper]
    dsimp only
    rw [if_neg h.fixedUnits, if_neg (Nat.not_lt.mpr h.graphics), if_neg (Bool.eq_false_iff.mp h.twoScreens),
      if_neg (Nat.not_lt.mpr h.length)]
    rfl

/-! ### When an image is refused (rule R411) -/

/-- The mapper identifier as a number: the high digits of bytes 7 and 6. -/
theorem mapperId_toNat (h : Header) : h.mapperId.toNat = h.flags7.toNat / 16 * 16 + h.flags6.toNat / 16 := by
  have hlow := h.flags6.isLt
  have hmask : ∀ v : Byte, (v &&& (0xF0 : Byte)).toNat = 2 ^ 4 * (v.toNat / 16) := by decide +kernel
  have hhigh : (h.flags7 &&& ((0xF0 : Nat) : Byte)).toNat = 2 ^ 4 * (h.flags7.toNat / 16) := hmask h.flags7
  rw [Header.mapperId, BitVec.toNat_or, hhigh, BitVec.toNat_ushiftRight, Nat.shiftRight_eq_div_pow,
    ← Nat.two_pow_add_eq_or_of_lt (by omega)]
  omega

theorem mapperOf_eq_some_iff (id : Byte) (m : Mapper) :
    mapperOf id = some m ↔ m = .fixed ∧ id.toNat = 0 ∨ m = .banked ∧ id.toNat = 2 := by
  revert id
  cases m <;> decide +kernel

theorem prgOffset_eq (h : Header) : h.prgOffset = 16 + (if h.flags6.getLsbD 2 then 512 else 0) := by
  rw [Header.prgOffset]
  split <;> rfl

/-- The length of an image up to the end of its graphics data, over its bytes. -/
theorem chrEnd_eq (image : List Byte) :
    (header image).chrOffset + (header image).nChr * chrUnit =
      16 + (if (image.getD 6 0).getLsbD 2 then 512 else 0) + (image.getD 4 0).toNat * 16384 +
        (image.getD 5 0).toNat * 8192 := by
  rw [Header.chrOffset, prgOffset_eq]
  rfl

/-- Bytes after the graphics data do not reach the header. -/
theorem header_append {image : List Byte} (h : 16 ≤ image.length) (more : List Byte) :
    header (image ++ more) = header image := by
  have hget : ∀ k < 16, (image ++ more).getD k 0 = image.getD k 0 := fun k hk =>
    List.getD_append image more 0 k (Nat.lt_of_lt_of_le hk h)
  simp only [header, hget 4 (by decide), hget 5 (by decide), hget 6 (by decide), hget 7 (by decide),
    List.take_append_of_le_length (Nat.le_trans (by decide : 4 ≤ 16) h)]

/-- Nor do they reach a part of the image that is whole without them. -/
theorem slice_append {image : List Byte} {start len : Nat} (h : start + len ≤ image.length) (more : List Byte) :
    slice start len (image ++ more) = slice start len image := by
  rw [slice, slice, List.drop_append_of_le_length (by omega), List.take_append_of_le_length (by
    rw [List.length_drop]
    omega)]

theorem Accepted.append {image : List Byte} {m : Mapper} (h : Accepted image m) (more : List Byte) :
    Accepted (image ++ more) m ∧ builtFrom (image ++ more) m = builtFrom image m := by
  have hheader := header_append h.headerLength more
  have hwhole := h.length
  have hlength : image.length ≤ (image ++ more).length := by rw [List.length_append]; omega
  refine ⟨⟨?_, ?_, ?_, ?_, ?_, ?_, ?_, ?_⟩, ?_⟩
  · exact Nat.le_trans h.headerLength hlength
  · rw [hheader]; exact h.constant
  · rw [hheader]; exact h.program
  · rw [hheader]; exact h.mapper
  · rw [hheader]; exact h.fixedUnits
  · rw [hheader]; exact h.graphics
  · rw [hheader]; exact h.twoScreens
  · rw [hheader]; exact Nat.le_trans hwhole hlength
  · have hprg : (header image).prgOffset + (header image).nPrg * prgUnit ≤ image.length :=
      Nat.le_trans (Nat.le_add_right _ _) hwhole
    rw [builtFrom, hheader, slice_append hprg, slice_append hwhole]
    rfl

/-- An image is refused exactly when no mapper accepts it. -/
theorem parseImage_eq_error_iff {image : List Byte} :
    (∃ e, parseImage image = .error e) ↔ ¬∃ m, Accepted image m := by
  cases e : parseImage image with
  | ok c =>
    obtain ⟨m, h, -⟩ := parseImage_eq_ok_iff.mp e
    simp only [reduceCtorEq, exists_false, false_iff, not_not]
    exact ⟨m, h⟩
  | error r =>
    refine iff_of_true ⟨r, rfl⟩ fun ⟨m, h⟩ => ?_
    rw [parseImage_eq_ok_iff.mpr ⟨m, h, rfl⟩] at e
    cases e

/-- Settles O56: the listed conditions are the negations of `Accepted`'s, for the mapper the identifier names. -/
theorem imagesAreRefusedExactlyAsListed : Obligations.ImagesAreRefusedExactlyAsListed := by
  intro image byte mapper trainer
  have hid : (header image).mapperId.toNat = mapper := mapperId_toNat (header image)
  have hend : (header image).chrOffset + (header image).nChr * chrUnit =
    16 + trainer + (byte 4).toNat * 16384 + (byte 5).toNat * 8192 := chrEnd_eq image
  refine ⟨parseImage_eq_error_iff.trans ⟨fun h => ?_, fun h => ?_⟩, fun c more h => ?_⟩
  · by_contra hnone
    push Not at hnone
    obtain ⟨h16, hconstant, hprogram, hmapper, hunits, hgraphics, hscreens, hlength⟩ := hnone
    obtain ⟨m, hm⟩ : ∃ m : Mapper, m = .fixed ∧ mapper = 0 ∨ m = .banked ∧ mapper = 2 := by
      by_cases h0 : mapper = 0
      · exact ⟨.fixed, .inl ⟨rfl, h0⟩⟩
      · exact ⟨.banked, .inr ⟨rfl, hmapper h0⟩⟩
    refine h ⟨m, h16, hconstant, hprogram, ?_, ?_, hgraphics, Bool.eq_false_iff.mpr hscreens, by rwa [hend]⟩
    · rwa [mapperOf_eq_some_iff, hid]
    · rintro ⟨rfl, h2⟩
      rcases hm with ⟨-, h0⟩ | ⟨hne, -⟩
      · exact absurd h2 (Nat.not_lt.mpr (hunits h0))
      · cases hne
  · rintro ⟨m, ha⟩
    have hm := (mapperOf_eq_some_iff _ _).mp ha.mapper
    have hlength := ha.length
    rw [hid] at hm
    rw [hend] at hlength
    rcases h with h | h | h | h | h | h | h | h
    · exact absurd ha.headerLength (Nat.not_le.mpr h)
    · exact h ha.constant
    · exact ha.program h
    · omega
    · rcases hm with ⟨rfl, -⟩ | ⟨-, h2⟩
      · exact ha.fixedUnits ⟨rfl, h.2⟩
      · omega
    · exact absurd ha.graphics (Nat.not_le.mpr h)
    · exact absurd h (Bool.eq_false_iff.mp ha.twoScreens)
    · omega
  · obtain ⟨m, ha, rfl⟩ := parseImage_eq_ok_iff.mp h
    obtain ⟨h', e⟩ := ha.append more
    exact parseImage_eq_ok_iff.mpr ⟨m, h', e.symm⟩

/-! ### What the cartridge holds (rules R410, R412) -/

/-- A byte of a part of the image. -/
theorem getD_slice {image : List Byte} {start len k : Nat} (hk : k < len) :
    (slice start len image).getD k 0 = image.getD (start + k) 0 := by
  rw [slice, List.getD_eq_getElem?_getD, List.getD_eq_getElem?_getD, List.getElem?_take_of_lt hk, List.getElem?_drop]

theorem readCell_slice {image : List Byte} {start len k : Nat} (hk : k < len) :
    readCell (memoryOfBytes 0 (slice start len image)) k = image.getD (start + k) 0 := by
  have h := readCell_memoryOfBytes 0 (slice start len image) k
  rw [Nat.zero_add] at h
  rw [h, getD_slice hk]

theorem within_memoryOfBytes {l : List Byte} {size : Nat} (h : l.length ≤ size) :
    Store.within size (memoryOfBytes 0 l) :=
  ⟨wfFrom_memoryOfBytes 0 l, fun k v hm => by
    have := mem_memoryOfBytes hm
    omega⟩

theorem length_slice_le (start len : Nat) (image : List Byte) : (slice start len image).length ≤ len := by
  rw [slice, List.length_take]
  exact Nat.min_le_left _ _

theorem builtFrom_inv {image : List Byte} {m : Mapper} (h : Accepted image m) : (builtFrom image m).Inv where
  units := Nat.pos_of_ne_zero h.program
  fixedUnits hm := Nat.not_lt.mp fun h2 => h.fixedUnits ⟨hm, h2⟩
  prg := within_memoryOfBytes (length_slice_le _ _ _)
  chr := within_memoryOfBytes <| (length_slice_le _ _ _).trans (Nat.mul_le_of_le_div _ _ _ h.graphics)

/-! ## Session creation (rule R423, 70_reset_and_hazards rule R480) -/

/-- A vector above 0x8000 is program data, so it holds a word. -/
theorem exists_vectorHolds {vec : Word} (h : ¬vec < 0x8000) (h' : ¬vec + 1 < 0x8000) (s : State) :
    ∃ target, VectorHolds vec target s := by
  have hpeek : ∀ a : Word, ¬a < 0x8000 → ∃ v, peek a s = some v := fun a ha => by
    obtain ⟨k, hk⟩ := prgIndex_some (c := s.cart) ha
    have h2 : ¬a < 0x2000 := fun hlt => ha (BitVec.lt_trans hlt (by decide))
    exact ⟨_, by rw [peek, if_neg h2, cartCpuRead, hk, Option.map_some]⟩
  obtain ⟨lo, hlo⟩ := hpeek vec h
  obtain ⟨hi, hhi⟩ := hpeek (vec + 1) h'
  exact ⟨mkWord hi lo, by rwa [loByte_mkWord], by rwa [hiByte_mkWord]⟩

/-- The CPU's reset: the registers' values, with `PC` the word of the reset vector; nothing else changes. -/
theorem resetCpu_eq (s : State) :
    ∃ target, VectorHolds vecReset target s ∧ resetCpu s = { s with cpu := Cpu.reset target } := by
  obtain ⟨target, h⟩ := exists_vectorHolds (vec := vecReset) (by decide) (by decide) s
  exact ⟨target, h, by rw [resetCpu, memRead16_peek h.1 h.2, mkWord_bytes]⟩

theorem createSession_of_ok {image : List Byte} {c : Cartridge} (h : parseImage image = .ok c) (params : Params) :
    createSession params image = .ok (resetCpu (platform params c)) := by
  rw [createSession, h]

/-- A cartridge in its ranges gives a session that meets the invariant. -/
theorem resetCpu_inv {c : Cartridge} (h : c.Inv) (params : Params) : (resetCpu (platform params c)).Inv := by
  obtain ⟨target, -, e⟩ := resetCpu_eq (platform params c)
  rw [e]
  exact ⟨within_nil _, Ppu.reset_inv, h, within_nil _, rfl, rfl⟩

/-- Settles O57: each field is `builtFrom`'s, and the session's other devices are those of reset. -/
theorem imageFieldsReachTheCartridge : Obligations.ImageFieldsReachTheCartridge := by
  intro image c hc byte start
  obtain ⟨m, h, rfl⟩ := parseImage_eq_ok_iff.mp hc
  have hstart : (header image).prgOffset = start := rfl
  have hid := mapperId_toNat (header image)
  have hm := (mapperOf_eq_some_iff _ _).mp h.mapper
  refine ⟨rfl, fun k hk => ?_, ?_, fun hrom k hk => ?_, ?_, ?_, rfl, fun params s hs => ?_⟩
  · rw [← hstart]
    exact readCell_slice hk
  · exact beq_iff_eq
  · have hchr : (header image).nChr = 1 := by
      have hne : (header image).nChr ≠ 0 := by simpa [builtFrom] using hrom
      have := h.graphics
      omega
    rw [← hstart]
    refine readCell_slice ?_
    rwa [hchr]
  · rcases hm with ⟨rfl, h0⟩ | ⟨rfl, h2⟩
    · exact iff_of_true rfl (hid.symm.trans h0)
    · exact iff_of_false nofun fun h0 => by rw [hid.trans h0] at h2; cases h2
  · have hmirroring : (builtFrom image m).mirroring = if (byte 6).getLsbD 0 then .vertical else .horizontal := rfl
    rw [hmirroring]
    cases (byte 6).getLsbD 0 <;> decide
  · rw [createSession_of_ok hc] at hs
    cases hs
    exact resetCpu_inv (builtFrom_inv h) params

/-- Settles O58: the vector is read without side effect, so the rest of the session is the platform's. -/
theorem sessionStartsAtTheResetVector : Obligations.SessionStartsAtTheResetVector := by
  intro params image c hc
  obtain ⟨target, hvec, e⟩ := resetCpu_eq (platform params c)
  refine ⟨_, createSession_of_ok hc params, ?_⟩
  rw [e]
  exact ⟨hvec, rfl, rfl, rfl, rfl, rfl⟩

/-! ## The Synchronizer's cycles and dots (rules R420, R422) -/

/-- No step of the CPU takes cycles back. -/
theorem cpuStep_cycles {n i : Bool} {s t : State} (h : cpuStep n i s = .next t) : s.cpu.cycles ≤ t.cpu.cycles := by
  have hentry : ∀ (vec : Word) (b : Bool) (u : State), (interruptEntry vec b u).cpu.cycles = u.cpu.cycles :=
    fun vec b u => by rw [interruptEntry_eq]; rfl
  unfold cpuStep at h
  split at h
  · cases h
    exact Nat.le_refl _
  split at h
  · cases h
    rw [serviceNmi, charge_cpu, spent, hentry]
    exact Nat.le_add_right _ _
  split at h
  · cases h
    rw [serviceIrq, charge_cpu, spent, hentry]
    exact Nat.le_add_right _ _
  · obtain ⟨pc, hfetch⟩ := fetch_cpu s
    have hcost := exec_cost h
    rw [hfetch] at hcost
    rw [hcost]
    exact Nat.le_add_right _ _

/-- What the delivery of a frame leaves, by whether one is ready. -/
theorem deliverFrame_of_ready {s : State} (h : s.ppu.frameReady = true) :
    deliverFrame s =
      { s with
        ppu := { s.ppu with frameReady := false }, frameOut := s.ppu.frame, framesReturned := s.framesReturned + 1 } :=
  if_pos h

theorem deliverFrame_of_not_ready {s : State} (h : s.ppu.frameReady = false) : deliverFrame s = s :=
  if_neg (Bool.eq_false_iff.mp h)

/-- `n` dots and the delivery, from a frame that has not been completed: the frame is handed out exactly when the dots
reach its end. -/
theorem deliverFrame_runDots {u : State} (h : InFrame u.ppu) (hready : u.ppu.frameReady = false) (n : Nat) :
    let t := deliverFrame (runDots n u)
    dotNumber t.ppu = (dotNumber u.ppu + n) % 89342 ∧ t.ppu.frameReady = false ∧
    (89342 ≤ dotNumber u.ppu + n → t.frameOut = t.ppu.frame ∧ t.framesReturned = u.framesReturned + 1) ∧
    (dotNumber u.ppu + n < 89342 → t.frameOut = u.frameOut ∧ t.framesReturned = u.framesReturned) := by
  intro t
  obtain ⟨hnumber, -⟩ := ppuDots_number u.cart n h
  have hdone : (runDots n u).ppu.frameReady = decide (89342 ≤ dotNumber u.ppu + n) := by
    rw [runDots_ppu, ppuDots_frameReady u.cart n h, hready, Bool.false_or]
  by_cases hend : 89342 ≤ dotNumber u.ppu + n
  · have ht : t = _ := deliverFrame_of_ready (hdone.trans (decide_eq_true hend))
    rw [ht]
    exact ⟨hnumber, rfl, fun _ => ⟨rfl, rfl⟩, fun hlt => absurd hend (Nat.not_le.mpr hlt)⟩
  · have hnot := hdone.trans (decide_eq_false hend)
    have ht : t = runDots n u := deliverFrame_of_not_ready hnot
    rw [ht]
    exact ⟨hnumber, hnot, fun hle => absurd hle hend, fun _ => ⟨rfl, rfl⟩⟩

/-- Settles O59: the CPU's part leaves the counters and the handed-out frame, and takes no cycles back; the rest is the
dots and the delivery. -/
theorem dotsFollowTheCycleCount : Obligations.DotsFollowTheCycleCount := by
  intro s t hs hc hready h hrun moved
  rcases step_parts h with ⟨hhalted, rfl⟩ | ⟨u, hu, rfl⟩
  · rw [hhalted] at hrun
    cases hrun
  · rw [afterCpu_cpu] at hrun
    have hcycles := cpuStep_cycles hu
    rw [clearNmiRequest_cpu] at hcycles
    have haccess := (cpuStep_touched hu).access
    obtain ⟨hout, hreturned⟩ := (cpuStep_touched hu).frameOut
    have hframe : InFrame u.ppu := ⟨haccess.scanline ▸ hs, haccess.cycle ▸ hc⟩
    have hnumber : dotNumber u.ppu = dotNumber s.ppu := by
      rw [dotNumber, haccess.scanline, haccess.cycle]
      rfl
    have hafter : afterCpu s.cpu.cycles u = deliverFrame (runDots (3 * (u.cpu.cycles - s.cpu.cycles)) u) :=
      if_neg (Bool.eq_false_iff.mp hrun)
    have hmoved : moved = dotNumber u.ppu + 3 * (u.cpu.cycles - s.cpu.cycles) := by
      simp only [moved, afterCpu_cpu, hnumber]
    obtain ⟨h1, h2, h3, h4⟩ :=
      deliverFrame_runDots hframe (haccess.frameReady.trans hready) (3 * (u.cpu.cycles - s.cpu.cycles))
    rw [← hmoved, ← hafter] at h1 h3 h4
    rw [← hafter] at h2
    rw [hreturned] at h3 h4
    rw [hout] at h4
    refine ⟨?_, h1, h2, h3, h4⟩
    rwa [afterCpu_cpu]

end Sys2Proof.Machine
end

section
/-! PROOFS. The statements about HALT, the interrupts and the step's completion (60_exceptions). -/

namespace Sys2Proof.Machine

/-! ## HALT (rules R440 to R442) -/

theorem cpuStep_of_halted {s : State} (h : s.cpu.halted = true) (n i : Bool) : cpuStep n i s = .next s := if_pos h

theorem step_of_halted {s : State} (h : s.cpu.halted = true) : step s = .next s := if_pos h

/-- Settles O6: both steps look at `halted` first. -/
theorem haltedMachineNeverChanges : Obligations.HaltedMachineNeverChanges := fun _ h =>
  ⟨cpuStep_of_halted h, step_of_halted h⟩

/-- The cell of an opcode that raises HALT is an instruction that raises it with this opcode, whatever its operand. -/
theorem haltOpcodes_build : ∀ op ∈ haltOpcodes,
    ((decodeOpcode op).build 0 0).access = .halt ∧ ((decodeOpcode op).build 0 0).opcode = op := by
  decide +kernel

theorem exec_of_access_halt {i : Instr} (h : i.access = .halt) (s : State) : exec i s = haltIllegal i.opcode s := by
  have hclass := exec_byClass i s
  rwa [AnswersByClass, h] at hclass

/-- The Synchronizer runs no dot after an instruction that leaves the CPU halted. -/
theorem finish_of_halted {t : State} (h : t.cpu.halted = true) (s : State) : finish s (.next t) = .next t :=
  congrArg Host.Outcome.next (if_pos h)

/-- Settles O7: the fetch reads one byte, and HALT puts `PC` back to it. -/
theorem haltLeavesTheStateUntouched : Obligations.HaltLeavesTheStateUntouched := by
  intro s hs r
  have hcpu : (skip 1 r.st).cpu = { s.cpu with pc := s.cpu.pc + 1 } :=
    congrArg (fun c : Cpu => { c with pc := c.pc + 1 }) (busRead_cpu s.cpu.pc s)
  have hback : s.cpu.pc + 1 - 1 = s.cpu.pc := BitVec.add_sub_cancel _ _
  rw [step_of_running s hs, runInstruction, fetch_eq]
  dsimp only
  refine ⟨fun hop => ?_, fun hop hmode => ?_⟩
  · have hmem : r.val ∈ haltOpcodes := hop
    obtain ⟨haccess, hopcode⟩ := haltOpcodes_build _ hmem
    rw [if_pos hmem]
    dsimp only
    rw [exec_of_access_halt haccess, hopcode, haltIllegal_eq, finish_of_halted rfl, hcpu]
    dsimp only
    rw [hback]
    rfl
  · have hmem : r.val ∉ haltOpcodes := hop ▸ (by decide : (0x00 : Byte) ∉ haltOpcodes)
    have hcell : decodeOpcode r.val = .f1 .brkImp := by
      rw [hop]
      rfl
    have hparams : (skip 1 r.st).params.brkMode = .halt := by
      rw [skip_params, busRead_params, hmode]
    rw [if_neg hmem, hcell, fetchOperand]
    dsimp only
    rw [exec_brkImp, brk_of_halt hparams, finish_of_halted rfl, hcpu]
    dsimp only
    rw [hback]
    rfl

/-! ## Taking an interrupt (rules R445 to R449) -/

theorem vectors_above_ram : ∀ vec ∈ [vecNmi, vecReset, vecIrq], ¬vec < 0x2000 ∧ ¬vec + 1 < 0x2000 := by
  simp only [List.forall_mem_cons, List.not_mem_nil, false_implies, implies_true, and_true]
  decide

/-- Settles O8: the vectors stand above RAM, where the pushes store nothing. -/
theorem interruptEntryPushesAndVectors : Obligations.InterruptEntryPushesAndVectors := by
  intro s vec target b hvec h
  obtain ⟨hlo, hhi⟩ := vectors_above_ram vec hvec
  exact interruptEntry_eq_entryTo b hlo hhi h

/-- The Synchronizer after an interrupt of a running CPU: the dots of its cycles. -/
theorem step_of_interrupt {s t : State} (hs : s.cpu.halted = false) (ht : t.cpu.halted = false)
    (hcost : t.cpu.cycles = s.cpu.cycles + 7)
    (h : cpuStep s.ppu.nmiRequest s.irqLine (clearNmiRequest s) = .next t) :
    step s = .next (deliverFrame (runDots 21 t)) := by
  have hdots : ppuPerCpu * (t.cpu.cycles - s.cpu.cycles) = 21 := by
    rw [hcost, Nat.add_sub_cancel_left]
    rfl
  rw [step, syncStep, if_neg (Bool.eq_false_iff.mp hs), h]
  dsimp only
  rw [afterCpu, if_neg (Bool.eq_false_iff.mp ht), hdots]

/-- Settles O9: the NMI is checked before the IRQ and the fetch, and its entry is O8's. -/
theorem nmiIsTakenBeforeAnythingElse : Obligations.NmiIsTakenBeforeAnythingElse := by
  intro s target hs hnmi hvec s0 t
  have hentry : interruptEntry vecNmi false s0 = t :=
    interruptEntry_eq_entryTo false (by decide) (by decide) hvec
  have hcpu : cpuStep s.ppu.nmiRequest s.irqLine (clearNmiRequest s) = .next (charge 7 t) := by
    have hpending : (s.cpu.nmiPending || s.ppu.nmiRequest) = true := by rwa [Bool.or_eq_true]
    rw [← hentry]
    exact (if_neg (Bool.eq_false_iff.mp hs)).trans (if_pos hpending)
  exact step_of_interrupt (t := charge 7 t) hs hs rfl hcpu

/-! ### The IRQ line is looked at in the interrupt check alone (10_state rule R21)

Each part of the step does the same at either level of the line, and leaves the line. -/

/-- The machine with the IRQ line at another level. -/
def setLine (x : Bool) (s : State) : State := { s with irqLine := x }

/-- An answer with the IRQ line at another level. -/
def answerLine (x : Bool) : Out → Out
  | .next t => .next (setLine x t)
  | .fault r => .fault r
  | .refused r => .refused r

section Line

variable (x : Bool) (s : State)

theorem busRead_setLine (a : Word) :
    busRead a (setLine x s) = { val := (busRead a s).val, st := setLine x (busRead a s).st } := by
  unfold setLine busRead
  split
  · rfl
  split
  · unfold ppuRegRead
    split
    · rfl
    split
    · rfl
    split
    · unfold dataRead
      dsimp only
      split <;> rfl
    · rfl
  split
  · unfold port1Read
    dsimp only
    split <;> rfl
  split
  · unfold port2Read
    dsimp only
    split <;> rfl
  · dsimp only
    split <;> rfl

theorem busWrite_setLine (a : Word) (v : Byte) : busWrite a v (setLine x s) = setLine x (busWrite a v s) := by
  unfold setLine busWrite
  split
  · rfl
  split
  · unfold ppuRegWrite
    iterate 7 (split; · rfl)
    unfold dataWrite ppuWrite
    dsimp only
    split
    · rfl
    split <;> rfl
  split
  · rfl
  split <;> rfl

theorem mapCpu_setLine (f : Cpu → Cpu) : mapCpu f (setLine x s) = setLine x (mapCpu f s) := rfl

theorem charge_setLine (n : Nat) : charge n (setLine x s) = setLine x (charge n s) := rfl

theorem setLine_cpu : (setLine x s).cpu = s.cpu := rfl

theorem answerLine_next : answerLine x (.next s) = .next (setLine x s) := rfl

/-! #### Operands -/

theorem readPair_setLine (lo hi : Word) :
    readPair lo hi (setLine x s) = { val := (readPair lo hi s).val, st := setLine x (readPair lo hi s).st } := by
  simp only [readPair, busRead_setLine]

theorem resolve_setLine (m : MemMode) :
    resolve m (setLine x s) =
      { ea := (resolve m s).ea, crossed := (resolve m s).crossed, st := setLine x (resolve m s).st } := by
  cases m with
  | zp | zpx | zpy | abs | abx | aby => rfl
  | izx | izy => simp only [resolve, zeroPagePointer, indexed, setLine_cpu, readPair_setLine]

theorem readOperand_setLine (src : Source) :
    readOperand src (setLine x s) =
      { val := (readOperand src s).val, crossed := (readOperand src s).crossed,
        st := setLine x (readOperand src s).st } := by
  cases src with
  | imm => rfl
  | mem m => simp only [readOperand, resolve_setLine, busRead_setLine]

/-! #### Access classes -/

theorem readInstr_setLine (base : Nat) (penalty : Bool) (src : Source) (f : Byte → Cpu → Cpu) :
    readInstr base penalty src f (setLine x s) = answerLine x (readInstr base penalty src f s) := by
  simp only [readInstr, readOperand_setLine, mapCpu_setLine, charge_setLine, answerLine_next]

theorem writeInstr_setLine (base : Nat) (m : MemMode) (v : Byte) :
    writeInstr base m v (setLine x s) = answerLine x (writeInstr base m v s) := by
  simp only [writeInstr, resolve_setLine, busWrite_setLine, charge_setLine, answerLine_next]

theorem modifyInstr_setLine (base : Nat) (m : MemMode) (f : Byte → Cpu → Byte) (g : Byte → Byte → Cpu → Cpu) :
    modifyInstr base m f g (setLine x s) = answerLine x (modifyInstr base m f g s) := by
  simp only [modifyInstr, resolve_setLine, busRead_setLine, busWrite_setLine, setLine_cpu, mapCpu_setLine,
    charge_setLine, answerLine_next]

theorem branch_setLine (cond : Bool) (d : Byte) :
    branch cond d (setLine x s) = answerLine x (branch cond d s) := by
  cases cond <;> rfl

/-! #### The stack and the interrupts -/

theorem push_setLine (v : Byte) : push v (setLine x s) = setLine x (push v s) := by
  simp only [push, setLine_cpu, busWrite_setLine, mapCpu_setLine]

theorem pull_setLine : pull (setLine x s) = { val := (pull s).val, st := setLine x (pull s).st } := by
  simp only [pull, setLine_cpu, mapCpu_setLine, busRead_setLine]

theorem pushWord_setLine (w : Word) : pushWord w (setLine x s) = setLine x (pushWord w s) := by
  simp only [pushWord, push_setLine]

theorem pullWord_setLine : pullWord (setLine x s) = { val := (pullWord s).val, st := setLine x (pullWord s).st } := by
  simp only [pullWord, pull_setLine]

theorem interruptEntry_setLine (vec : Word) (b : Bool) :
    interruptEntry vec b (setLine x s) = setLine x (interruptEntry vec b s) := by
  simp only [interruptEntry, setLine_cpu, pushWord_setLine, push_setLine, mapCpu_setLine, memRead16, readPair_setLine]

theorem brk_setLine : brk (setLine x s) = answerLine x (brk s) := by
  have hparams : (setLine x s).params = s.params := rfl
  cases hmode : s.params.brkMode with
  | halt => rw [brk_of_halt (hparams ▸ hmode), brk_of_halt hmode]; rfl
  | interrupt =>
    have hskip : skip 1 (setLine x s) = setLine x (skip 1 s) := rfl
    rw [brk_of_interrupt (hparams ▸ hmode), brk_of_interrupt hmode, hskip, interruptEntry_setLine, charge_setLine,
      answerLine_next]

/-! #### An instruction, its fetch, and the dots -/

/-- An instruction's meaning is one of the access classes, or is made of pushes and pulls. -/
theorem exec_setLine (i : Instr) : exec i (setLine x s) = answerLine x (exec i s) := by
  cases i with
  | ldaIzx | ldaZp | ldaImm | ldaAbs | ldaIzy | ldaZpx | ldaAby | ldaAbx =>
    exact readInstr_setLine x s _ _ _ (fun m c => loadA m c)
  | ldxImm | ldxZp | ldxAbs | ldxZpy | ldxAby =>
    exact readInstr_setLine x s _ _ _ (fun m c => loadX m c)
  | ldyImm | ldyZp | ldyAbs | ldyZpx | ldyAbx =>
    exact readInstr_setLine x s _ _ _ (fun m c => loadY m c)
  | andIzx | andZp | andImm | andAbs | andIzy | andZpx | andAby | andAbx =>
    exact readInstr_setLine x s _ _ _ (fun m c => loadA (c.a &&& m) c)
  | oraIzx | oraZp | oraImm | oraAbs | oraIzy | oraZpx | oraAby | oraAbx =>
    exact readInstr_setLine x s _ _ _ (fun m c => loadA (c.a ||| m) c)
  | eorIzx | eorZp | eorImm | eorAbs | eorIzy | eorZpx | eorAby | eorAbx =>
    exact readInstr_setLine x s _ _ _ (fun m c => loadA (c.a ^^^ m) c)
  | bitZp | bitAbs =>
    exact readInstr_setLine x s _ _ _ (fun m c => bitTest m c)
  | cmpIzx | cmpZp | cmpImm | cmpAbs | cmpIzy | cmpZpx | cmpAby | cmpAbx =>
    exact readInstr_setLine x s _ _ _ (fun m c => compareCore c.a m c)
  | cpxImm | cpxZp | cpxAbs =>
    exact readInstr_setLine x s _ _ _ (fun m c => compareCore c.x m c)
  | cpyImm | cpyZp | cpyAbs =>
    exact readInstr_setLine x s _ _ _ (fun m c => compareCore c.y m c)
  | adcIzx | adcZp | adcImm | adcAbs | adcIzy | adcZpx | adcAby | adcAbx =>
    exact readInstr_setLine x s _ _ _ (fun m c => addCore s.params.decimalEnabled m c)
  | sbcIzx | sbcZp | sbcImm | sbcImmEB | sbcAbs | sbcIzy | sbcZpx | sbcAby | sbcAbx =>
    exact readInstr_setLine x s _ _ _ (fun m c => subCore s.params.decimalEnabled m c)
  | incZp | incAbs | incZpx | incAbx =>
    exact modifyInstr_setLine x s _ _ (fun m _ => m + 1) (fun _ n c => setNZ n c)
  | decZp | decAbs | decZpx | decAbx =>
    exact modifyInstr_setLine x s _ _ (fun m _ => m - 1) (fun _ n c => setNZ n c)
  | aslZp | aslAbs | aslZpx | aslAbx =>
    exact modifyInstr_setLine x s _ _ (fun m _ => shiftLeft m) (fun m n c => setNZ n (setC (bit7 m) c))
  | lsrZp | lsrAbs | lsrZpx | lsrAbx =>
    exact modifyInstr_setLine x s _ _ (fun m _ => shiftRight m) (fun m n c => setNZ n (setC (m.getLsbD 0) c))
  | rolZp | rolAbs | rolZpx | rolAbx =>
    exact modifyInstr_setLine x s _ _ (fun m c => rotateLeft m c.p.c) (fun m n c => setNZ n (setC (bit7 m) c))
  | rorZp | rorAbs | rorZpx | rorAbx =>
    exact modifyInstr_setLine x s _ _ (fun m c => rotateRight m c.p.c) (fun m n c => setNZ n (setC (m.getLsbD 0) c))
  | laxIzx | laxZp | laxAbs | laxIzy | laxZpy | laxAby =>
    exact readInstr_setLine x s _ _ _ (fun m c => setX m (loadA m c))
  | dcpIzx | dcpZp | dcpAbs | dcpIzy | dcpZpx | dcpAby | dcpAbx =>
    exact modifyInstr_setLine x s _ _ (fun m _ => m - 1) (fun _ n c => compareCore c.a n c)
  | iscIzx | iscZp | iscAbs | iscIzy | iscZpx | iscAby | iscAbx =>
    exact modifyInstr_setLine x s _ _ (fun m _ => m + 1) (fun _ n c => subCore s.params.decimalEnabled n c)
  | sloIzx | sloZp | sloAbs | sloIzy | sloZpx | sloAby | sloAbx =>
    exact modifyInstr_setLine x s _ _ (fun m _ => shiftLeft m) (fun m n c => loadA (c.a ||| n) (setC (bit7 m) c))
  | rlaIzx | rlaZp | rlaAbs | rlaIzy | rlaZpx | rlaAby | rlaAbx =>
    exact modifyInstr_setLine x s _ _ (fun m c => rotateLeft m c.p.c) (fun m n c => loadA (c.a &&& n) (setC (bit7 m) c))
  | sreIzx | sreZp | sreAbs | sreIzy | sreZpx | sreAby | sreAbx =>
    exact modifyInstr_setLine x s _ _ (fun m _ => shiftRight m) (fun m n c => loadA (c.a ^^^ n) (setC (m.getLsbD 0) c))
  | rraIzx | rraZp | rraAbs | rraIzy | rraZpx | rraAby | rraAbx =>
    exact modifyInstr_setLine x s _ _ (fun m c => rotateRight m c.p.c)
      (fun m n c => addCore s.params.decimalEnabled n (setC (m.getLsbD 0) c))
  | ancImm0B | ancImm2B =>
    exact readInstr_setLine x s _ _ _ (fun m c => ancCore m c)
  | alrImm =>
    exact readInstr_setLine x s _ _ _ (fun m c => alrCore m c)
  | axsImm =>
    exact readInstr_setLine x s _ _ _ (fun m c => axsCore m c)
  | lasAby =>
    exact readInstr_setLine x s _ _ _ (fun m c => lasCore m c)
  | arrImm =>
    exact readInstr_setLine x s _ _ _ (fun m c => arrCore s.params.decimalEnabled m c)
  | nopZp04 | nopAbs | nopZpx14 | nopAbx1C | nopZpx34 | nopAbx3C | nopZp44 | nopZpx54 | nopAbx5C | nopZp64
  | nopZpx74 | nopAbx7C | nopImm80 | nopImm82 | nopImm89 | nopImmC2 | nopZpxD4 | nopAbxDC | nopImmE2 | nopZpxF4
  | nopAbxFC =>
    exact readInstr_setLine x s _ _ _ (fun _ c => c)
  | staIzx | staZp | staAbs | staIzy | staZpx | staAby | staAbx | stxZp | stxAbs | stxZpy | styZp | styAbs | styZpx
  | saxIzx | saxZp | saxAbs | saxZpy =>
    exact writeInstr_setLine x s _ _ _
  | aslAcc | lsrAcc | rolAcc | rorAcc | nopImp1A | nopImp3A | nopImp5A | nopImp7A | nopImpDA | nopImp | nopImpFA
  | taxImp | tayImp | txaImp | tyaImp | tsxImp | txsImp | inxImp | inyImp | dexImp | deyImp | clcImp | secImp
  | cliImp | seiImp | cldImp | sedImp | clvImp | jmpAbs =>
    rfl
  | bccRel | bcsRel | beqRel | bneRel | bmiRel | bplRel | bvcRel | bvsRel =>
    exact branch_setLine x s _ _
  | jamImp02 | jamImp12 | jamImp22 | jamImp32 | jamImp42 | jamImp52 | jamImp62 | jamImp72 | jamImp92 | jamImpB2
  | jamImpD2 | jamImpF2 | xaaImm | lxaImm | shaIzy | shaAby | shyAbx | shxAby | tasAby =>
    rfl
  | jmpInd =>
    simp only [exec_jmpInd, indirectTarget, readPair_setLine, mapCpu_setLine, charge_setLine, answerLine_next]
  | phaImp => rw [exec_pha, exec_pha]; rfl
  | phpImp => rw [exec_php, exec_php]; rfl
  | plaImp => rw [exec_pla, exec_pla]; rfl
  | plpImp => rw [exec_plp, exec_plp]; rfl
  | jsrAbs => rw [exec_jsr, exec_jsr]; rfl
  | rtsImp => rw [exec_rts, exec_rts]; rfl
  | rtiImp => rw [exec_rti, exec_rti]; rfl
  | brkImp => exact brk_setLine x s

theorem fetchByte_setLine :
    fetchByte (setLine x s) = { val := (fetchByte s).val, st := setLine x (fetchByte s).st } := by
  simp only [fetchByte, setLine_cpu, busRead_setLine, mapCpu_setLine]

theorem fetchOperand_setLine (f : Form) :
    fetchOperand f (setLine x s) = { instr := (fetchOperand f s).instr, st := setLine x (fetchOperand f s).st } := by
  cases f with
  | f1 => rfl
  | f2 | f3 => simp only [fetchOperand, fetchByte_setLine]

theorem fetch_setLine :
    fetch (setLine x s) = { instr := (fetch s).instr, st := setLine x (fetch s).st } := by
  simp only [fetch, fetchByte_setLine, fetchOperand_setLine]
  split <;> rfl

theorem runInstruction_setLine : runInstruction (setLine x s) = answerLine x (runInstruction s) := by
  simp only [runInstruction, fetch_setLine, exec_setLine]

theorem deliverFrame_setLine : deliverFrame (setLine x s) = setLine x (deliverFrame s) := by
  unfold setLine deliverFrame
  dsimp only
  split <;> rfl

theorem afterCpu_setLine (n : Nat) : afterCpu n (setLine x s) = setLine x (afterCpu n s) := by
  have hdots (k : Nat) : runDots k (setLine x s) = setLine x (runDots k s) := rfl
  unfold afterCpu
  rw [setLine_cpu, hdots, deliverFrame_setLine]
  split <;> rfl

theorem finish_setLine (o : Out) : finish (setLine x s) (answerLine x o) = answerLine x (finish s o) := by
  cases o with
  | next t => exact congrArg Host.Outcome.next (afterCpu_setLine x t s.cpu.cycles)
  | fault | refused => rfl

/-- The steps of two running machines that differ in the line differ in the line. -/
theorem step_setLine {x : Bool} {s : State} (h : Running s) (hx : Running (setLine x s)) :
    step (setLine x s) = answerLine x (step s) := by
  rw [step_of_running _ hx, step_of_running _ h, runInstruction_setLine, finish_setLine]

end Line

/-- Settles O10: with `I` clear the entry is O8's; with `I` set neither level of the line keeps the step from its
instruction. -/
theorem irqIsTakenWhenUnmasked : Obligations.IrqIsTakenWhenUnmasked := by
  intro s target hs hnmi hrequest hline
  refine ⟨fun hi hvec => ?_, fun hi o ho => ?_⟩
  · intro t
    have hentry : interruptEntry vecIrq false s = t :=
      interruptEntry_eq_entryTo false (by decide) (by decide) hvec
    have hcpu : cpuStep s.ppu.nmiRequest s.irqLine (clearNmiRequest s) = .next (charge 7 t) := by
      rw [clearNmiRequest_of_false hrequest, cpuStep, hs, hnmi, hrequest, hline, hi, ← hentry]
      rfl
    exact step_of_interrupt (t := charge 7 t) hs hs rfl hcpu
  · have hrun : Running { s with irqLine := false } := ⟨hs, hnmi, hrequest, rfl⟩
    have hset : setLine true { s with irqLine := false } = s := by
      rw [← hline]
      rfl
    have hrunSet : Running (setLine true { s with irqLine := false }) :=
      ⟨hs, hnmi, hrequest, congrArg (true && !·) hi⟩
    calc step s = step (setLine true { s with irqLine := false }) := by rw [hset]
      _ = answerLine true (step { s with irqLine := false }) := step_setLine hrun hrunSet
      _ = .next { o with irqLine := true } := by rw [ho]; rfl

/-! ## The return from an interrupt (46_system_flags rule R220) -/

/-- The three bytes an interrupt entry pushes stand in three different cells, wherever `S` stood. -/
theorem stackBytes_afterPushes (b : Bool) {s : State} (h : Store.wf s.bus.ram = true) :
    stackByte s.cpu.s (afterPushes b s) = hiByte s.cpu.pc ∧
      stackByte (s.cpu.s - 1) (afterPushes b s) = loByte s.cpu.pc ∧
      stackByte (s.cpu.s - 2) (afterPushes b s) = pack s.cpu.p b := by
  have h01 (p : Byte) : p ≠ p - 1 := by bv_omega
  have h02 (p : Byte) : p ≠ p - 2 := by bv_omega
  have h12 (p : Byte) : p - 1 ≠ p - 2 := by bv_omega
  have hhi := wf_stackStore (p := s.cpu.s) (v := hiByte s.cpu.pc) h
  have hlo := wf_stackStore (p := s.cpu.s - 1) (v := loByte s.cpu.pc) hhi
  simp only [stackByte, afterPushes, readCell_stackStore hlo, readCell_stackStore hhi, readCell_stackStore h, h01, h02,
    h12, if_true, if_false, pack_eq_packed, and_self]

/-- Settles O11: the three pulls find the three pushed bytes, and the pushed status holds every flag that the entry
changed. -/
theorem rtiResumesWhereTheInterruptCame : Obligations.RtiResumesWhereTheInterruptCame := by
  intro s vec target b hram hmem hvec
  have hlist : [vecNmi, vecIrq] ⊆ [vecNmi, vecReset, vecIrq] :=
    List.cons_subset_cons _ (List.subset_cons_self _ _)
  obtain ⟨hlo, hhi⟩ := vectors_above_ram vec (hlist hmem)
  obtain ⟨hpch, hpcl, hp⟩ := stackBytes_afterPushes b hram
  have h1 (p : Byte) : p - 3 + 1 = p - 2 := by bv_omega
  have h2 (p : Byte) : p - 2 + 1 = p - 1 := by bv_omega
  have hunpack : unpack (pack s.cpu.p b) { s.cpu.p with i := true } = s.cpu.p := unpack_pack s.cpu.p b
  rw [interruptEntry_eq_entryTo b hlo hhi hvec, returnFromInterrupt_eq]
  change { s.cpu with
    s := s.cpu.s - 3 + 1 + 1 + 1
    p := unpack (stackByte (s.cpu.s - 3 + 1) (afterPushes b s)) { s.cpu.p with i := true }
    pc := mkWord (stackByte (s.cpu.s - 3 + 1 + 1 + 1) (afterPushes b s))
      (stackByte (s.cpu.s - 3 + 1 + 1) (afterPushes b s)) } = s.cpu
  rw [h1, h2, BitVec.sub_add_cancel, hpch, hpcl, hp, hunpack, mkWord_bytes]

/-! ## Every step answers (rules R440, R309, R467) -/

theorem exec_completes (i : Instr) (s : State) : ∃ t, exec i s = .next t := by
  have hclass := exec_byClass i s
  unfold AnswersByClass at hclass
  cases ha : i.access with
  | idle | write =>
    simp only [ha] at hclass
    obtain ⟨_, _, h⟩ := hclass
    exact ⟨_, h⟩
  | read | modify =>
    simp only [ha] at hclass
    obtain ⟨_, _, _, h⟩ := hclass
    exact ⟨_, h⟩
  | pointer | halt =>
    simp only [ha] at hclass
    exact ⟨_, hclass⟩
  | push =>
    obtain ⟨_, _, -, h⟩ := exec_push ha s
    exact ⟨_, h⟩
  | pull =>
    obtain ⟨_, _, h⟩ := exec_pull ha s
    exact ⟨_, h⟩
  | brk =>
    simp only [ha] at hclass
    cases hmode : s.params.brkMode with
    | halt => exact ⟨_, hclass.trans (brk_of_halt hmode)⟩
    | interrupt => exact ⟨_, hclass.trans (brk_of_interrupt hmode)⟩

theorem cpuStep_completes (n i : Bool) (s : State) : ∃ t, cpuStep n i s = .next t := by
  unfold cpuStep
  split
  · exact ⟨_, rfl⟩
  split
  · exact ⟨_, rfl⟩
  split
  · exact ⟨_, rfl⟩
  · exact exec_completes _ _

/-- Settles O35: the step is halted, an interrupt or an instruction, and each answers. -/
theorem everyInstructionAndStepCompletes : Obligations.EveryInstructionAndStepCompletes := by
  refine ⟨exec_completes, fun s => ?_⟩
  obtain ⟨t, ht⟩ := cpuStep_completes s.ppu.nmiRequest s.irqLine (clearNmiRequest s)
  unfold step syncStep
  split
  · exact ⟨_, rfl⟩
  · rw [ht]
    exact ⟨_, rfl⟩

end Sys2Proof.Machine
end
